-- ==== Sys2Proof/Word.lean ====
section
/-! DEFINITION. The word types of the Clonos 2 (spec/01 R5, spec/02 R19). -/
namespace Sys2Proof

/-- One byte of any memory. -/
abbrev Byte := BitVec 8
/-- One v register of one lane; one 32-bit unit of text (R19, R43). -/
abbrev W32 := BitVec 32
/-- One s register; one base word; one generator state (R19, R45, R73). -/
abbrev W64 := BitVec 64
/-- One tile mask (R19). -/
abbrev W256 := BitVec 256

end Sys2Proof
end

