-- ==== Sys2Proof/Syntax.lean ====
section
/-! DEFINITION. The syntax of the machine: the fields of the nine format classes (spec/03 R45, R53 to R62) and ONE inductive
with a constructor for each row of the opcode table, the 163 instructions of R64 and the 84 steps of the module's other
agents (spec/95). An operand field keeps its 9-bit code, since the spec itself does arithmetic on codes (R62, R100). -/
namespace Sys2Proof

/-- The trap causes (R364). -/
inductive Cause
  | illegalOpcode | illegalOperand | reservedField | literalMisuse | stallShort | scratchBounds | misaligned | rangeBusy
  | promiseMissed | foldMismatch | descInvalid | divstackFull | hang | engineFault | itemFault | slackExhausted
  | channelInvalid | barrierInvalid | accInvalid | privilege | software | breakpoint | launchFull | poison | repeatMisuse
  deriving DecidableEq, Repr

/-- The head of every base word: N, G, STALL and REGION (R45). -/
structure Hdr where
  n : Bool
  g : BitVec 4
  stall : BitVec 4
  region : Bool
  deriving DecidableEq, Repr

/-- The literal that follows a base word (R43, R49). -/
inductive Lit
  | none
  | w32 (w : BitVec 32)
  | w64 (w : BitVec 64)
  deriving DecidableEq, Repr

/-- The fields of classes V, K, M, P, E and X: D, A, B, C and MINOR (R45). -/
structure Fields where
  h : Hdr
  d : BitVec 9
  a : BitVec 9
  b : BitVec 9
  c : BitVec 9
  minor : BitVec 10
  lit : Lit
  deriving DecidableEq, Repr

/-- The fields of class J; join is the unit after the word when JOIN is 1 (R55). -/
structure JFields where
  h : Hdr
  d : BitVec 9
  off : BitVec 27
  join : Option (BitVec 32)
  sub : BitVec 3
  deriving DecidableEq, Repr

/-- The fields of class S (R61). -/
structure SFields where
  h : Hdr
  d : BitVec 9
  a : BitVec 9
  sreg : BitVec 12
  lit : Lit
  deriving DecidableEq, Repr

/-- The fields of class Q, the repeat prefix of R62. -/
structure QFields where
  h : Hdr
  nrep : BitVec 6
  mask : BitVec 4
  strd : BitVec 2
  deriving DecidableEq, Repr

/-- The AOP or plain kind of a host's memory request (R396). -/
inductive HostOp
  | read
  | write
  | atomic (aop : Nat)
  deriving DecidableEq, Repr

/-- A request that arrives over the fabric (R393, R396): part is the partition whose node it names, 4 and more the node MNODE; zero is bits <63:26> of its fabric word;
slack is what it arrives with on the module, late and bg its LATE and BG (R276, R278). -/
structure HostReq where
  part : Nat
  src : Nat
  pasid : Nat
  space : Nat
  ord : Nat
  resp : Bool
  zero : Nat
  op : HostOp
  addr : Nat
  len : Nat
  data : List (BitVec 8)
  slack : Nat
  late : Bool
  bg : Bool
  deriving DecidableEq, Repr

/-- Something that a node sends to the boot ROM (R418). -/
structure Sent (α : Type) where
  src : Nat
  what : α
  deriving DecidableEq, Repr

/-- The instructions and steps of the module, one constructor per row of the opcode table. -/
inductive Instr
  /-- `nop` (R93), OP 0x01, class V. -/
  | nop (f : Fields)
  /-- `bra` (R94), OP 0x02, class J. -/
  | bra (f : JFields)
  /-- `brz` (R94), OP 0x03, class J. -/
  | brz (f : JFields)
  /-- `brnz` (R94), OP 0x04, class J. -/
  | brnz (f : JFields)
  /-- `brv` (R197), OP 0x05, class J. -/
  | brv (f : JFields)
  /-- `jmp` (R95), OP 0x06, class J. -/
  | jmp (f : JFields)
  /-- `call` (R95), OP 0x07, class J. -/
  | call (f : JFields)
  /-- `callr` (R95), OP 0x08, class J. -/
  | callr (f : JFields)
  /-- `ret` (R95), OP 0x09, class J. -/
  | ret (f : JFields)
  /-- `loop` (R94), OP 0x0A, class J. -/
  | loop (f : JFields)
  /-- `rpt` (R100), OP 0x0B, class Q. -/
  | rpt (f : QFields)
  /-- `exit` (R96), OP 0x0C, class V. -/
  | exit (f : Fields)
  /-- `yield` (R97), OP 0x0D, class V. -/
  | yield (f : Fields)
  /-- `trap` (R98), OP 0x0E, class V. -/
  | trap (f : Fields)
  /-- `tret` (R99), OP 0x0F, class V. -/
  | tret (f : Fields)
  /-- `brk` (R98), OP 0x10, class V. -/
  | brk (f : Fields)
  /-- `sysrd` (R101), OP 0x11, class S. -/
  | sysrd (f : SFields)
  /-- `syswr` (R101), OP 0x12, class S. -/
  | syswr (f : SFields)
  /-- `launch` (R359), OP 0x13, class E. -/
  | launch (f : Fields)
  /-- `elect` (R196), OP 0x14, class V. -/
  | elect (f : Fields)
  /-- `sadd` (R108), OP 0x20, class V. -/
  | sadd (f : Fields)
  /-- `ssub` (R108), OP 0x21, class V. -/
  | ssub (f : Fields)
  /-- `smul` (R108), OP 0x22, class V. -/
  | smul (f : Fields)
  /-- `smulh` (R108), OP 0x23, class V. -/
  | smulh (f : Fields)
  /-- `sdiv` (R109), OP 0x24, class V. -/
  | sdiv (f : Fields)
  /-- `srem` (R109), OP 0x25, class V. -/
  | srem (f : Fields)
  /-- `sand` (R108), OP 0x26, class V. -/
  | sand (f : Fields)
  /-- `sor` (R108), OP 0x27, class V. -/
  | sor (f : Fields)
  /-- `sxor` (R108), OP 0x28, class V. -/
  | sxor (f : Fields)
  /-- `sshl` (R110), OP 0x29, class V. -/
  | sshl (f : Fields)
  /-- `sshr` (R110), OP 0x2A, class V. -/
  | sshr (f : Fields)
  /-- `ssra` (R110), OP 0x2B, class V. -/
  | ssra (f : Fields)
  /-- `smin` (R108), OP 0x2C, class V. -/
  | smin (f : Fields)
  /-- `smax` (R108), OP 0x2D, class V. -/
  | smax (f : Fields)
  /-- `scmp` (R113), OP 0x2E, class K. -/
  | scmp (f : Fields)
  /-- `ssel` (R108), OP 0x2F, class V. -/
  | ssel (f : Fields)
  /-- `smov` (R108), OP 0x30, class V. -/
  | smov (f : Fields)
  /-- `sbfe` (R111), OP 0x31, class V. -/
  | sbfe (f : Fields)
  /-- `sbfi` (R111), OP 0x32, class V. -/
  | sbfi (f : Fields)
  /-- `spopc` (R112), OP 0x33, class V. -/
  | spopc (f : Fields)
  /-- `sclz` (R112), OP 0x34, class V. -/
  | sclz (f : Fields)
  /-- `sctz` (R112), OP 0x35, class V. -/
  | sctz (f : Fields)
  /-- `sld` (R114), OP 0x36, class M. -/
  | sld (f : Fields)
  /-- `sst` (R114), OP 0x37, class M. -/
  | sst (f : Fields)
  /-- `rdlane` (R116), OP 0x38, class V. -/
  | rdlane (f : Fields)
  /-- `wrlane` (R116), OP 0x39, class V. -/
  | wrlane (f : Fields)
  /-- `smad` (R108), OP 0x3A, class V. -/
  | smad (f : Fields)
  /-- `slea` (R108), OP 0x3B, class V. -/
  | slea (f : Fields)
  /-- `add` (R121), OP 0x40, class V. -/
  | add (f : Fields)
  /-- `sub` (R121), OP 0x41, class V. -/
  | sub (f : Fields)
  /-- `mul` (R121), OP 0x42, class V. -/
  | mul (f : Fields)
  /-- `mulh` (R121), OP 0x43, class V. -/
  | mulh (f : Fields)
  /-- `mad` (R121), OP 0x44, class V. -/
  | mad (f : Fields)
  /-- `min` (R121), OP 0x45, class V. -/
  | min (f : Fields)
  /-- `max` (R121), OP 0x46, class V. -/
  | max (f : Fields)
  /-- `abs` (R121), OP 0x47, class V. -/
  | abs (f : Fields)
  /-- `neg` (R121), OP 0x48, class V. -/
  | neg (f : Fields)
  /-- `and` (R121), OP 0x49, class V. -/
  | and (f : Fields)
  /-- `or` (R121), OP 0x4A, class V. -/
  | or (f : Fields)
  /-- `xor` (R121), OP 0x4B, class V. -/
  | xor (f : Fields)
  /-- `not` (R121), OP 0x4C, class V. -/
  | not (f : Fields)
  /-- `shl` (R122), OP 0x4D, class V. -/
  | shl (f : Fields)
  /-- `shr` (R122), OP 0x4E, class V. -/
  | shr (f : Fields)
  /-- `sra` (R122), OP 0x4F, class V. -/
  | sra (f : Fields)
  /-- `rotl` (R122), OP 0x50, class V. -/
  | rotl (f : Fields)
  /-- `bfe` (R123), OP 0x51, class V. -/
  | bfe (f : Fields)
  /-- `bfi` (R123), OP 0x52, class V. -/
  | bfi (f : Fields)
  /-- `popc` (R124), OP 0x53, class V. -/
  | popc (f : Fields)
  /-- `clz` (R124), OP 0x54, class V. -/
  | clz (f : Fields)
  /-- `ctz` (R124), OP 0x55, class V. -/
  | ctz (f : Fields)
  /-- `brev` (R124), OP 0x56, class V. -/
  | brev (f : Fields)
  /-- `sel` (R125), OP 0x57, class V. -/
  | sel (f : Fields)
  /-- `icmp` (R127), OP 0x58, class K. -/
  | icmp (f : Fields)
  /-- `mov` (R125), OP 0x59, class V. -/
  | mov (f : Fields)
  /-- `dot4` (R126), OP 0x5A, class V. -/
  | dot4 (f : Fields)
  /-- `lea` (R126), OP 0x5B, class V. -/
  | lea (f : Fields)
  /-- `prmt` (R126), OP 0x5C, class V. -/
  | prmt (f : Fields)
  /-- `fadd` (R128), OP 0x70, class V. -/
  | fadd (f : Fields)
  /-- `fsub` (R128), OP 0x71, class V. -/
  | fsub (f : Fields)
  /-- `fmul` (R128), OP 0x72, class V. -/
  | fmul (f : Fields)
  /-- `fma` (R128), OP 0x73, class V. -/
  | fma (f : Fields)
  /-- `fmin` (R129), OP 0x74, class V. -/
  | fmin (f : Fields)
  /-- `fmax` (R129), OP 0x75, class V. -/
  | fmax (f : Fields)
  /-- `fabs` (R128), OP 0x76, class V. -/
  | fabs (f : Fields)
  /-- `fneg` (R128), OP 0x77, class V. -/
  | fneg (f : Fields)
  /-- `fcmp` (R130), OP 0x78, class K. -/
  | fcmp (f : Fields)
  /-- `fclass` (R131), OP 0x79, class V. -/
  | fclass (f : Fields)
  /-- `rcp` (R132), OP 0x7A, class V. -/
  | rcp (f : Fields)
  /-- `rsqrt` (R132), OP 0x7B, class V. -/
  | rsqrt (f : Fields)
  /-- `sqrt` (R132), OP 0x7C, class V. -/
  | sqrt (f : Fields)
  /-- `ex2` (R132), OP 0x7D, class V. -/
  | ex2 (f : Fields)
  /-- `lg2` (R132), OP 0x7E, class V. -/
  | lg2 (f : Fields)
  /-- `sinpi` (R132), OP 0x7F, class V. -/
  | sinpi (f : Fields)
  /-- `cospi` (R132), OP 0x80, class V. -/
  | cospi (f : Fields)
  /-- `frnd` (R134), OP 0x81, class V. -/
  | frnd (f : Fields)
  /-- `frac` (R134), OP 0x82, class V. -/
  | frac (f : Fields)
  /-- `ldexp` (R134), OP 0x83, class V. -/
  | ldexp (f : Fields)
  /-- `cvt` (R136), OP 0x84, class V. -/
  | cvt (f : Fields)
  /-- `cvtef` (R138), OP 0x85, class V. -/
  | cvtef (f : Fields)
  /-- `fdot2` (R135), OP 0x86, class V. -/
  | fdot2 (f : Fields)
  /-- `pand` (R139), OP 0x90, class V. -/
  | pand (f : Fields)
  /-- `por` (R139), OP 0x91, class V. -/
  | por (f : Fields)
  /-- `pxor` (R139), OP 0x92, class V. -/
  | pxor (f : Fields)
  /-- `pnot` (R139), OP 0x93, class V. -/
  | pnot (f : Fields)
  /-- `pset` (R140), OP 0x94, class V. -/
  | pset (f : Fields)
  /-- `pget` (R140), OP 0x95, class V. -/
  | pget (f : Fields)
  /-- `vote` (R195), OP 0x96, class V. -/
  | vote (f : Fields)
  /-- `mvn` (R191), OP 0xA0, class V. -/
  | mvn (f : Fields)
  /-- `pdesc` (R180), OP 0xA1, class P. -/
  | pdesc (f : Fields)
  /-- `pld` (R181), OP 0xA2, class P. -/
  | pld (f : Fields)
  /-- `pst` (R181), OP 0xA3, class P. -/
  | pst (f : Fields)
  /-- `pew` (R183), OP 0xA4, class P. -/
  | pew (f : Fields)
  /-- `pshift` (R184), OP 0xA5, class P. -/
  | pshift (f : Fields)
  /-- `prot` (R184), OP 0xA6, class P. -/
  | prot (f : Fields)
  /-- `pspread` (R185), OP 0xA7, class P. -/
  | pspread (f : Fields)
  /-- `pfold` (R186), OP 0xA8, class P. -/
  | pfold (f : Fields)
  /-- `prefold` (R188), OP 0xA9, class P. -/
  | prefold (f : Fields)
  /-- `ptrans` (R189), OP 0xAA, class P. -/
  | ptrans (f : Fields)
  /-- `pscan` (R187), OP 0xAB, class P. -/
  | pscan (f : Fields)
  /-- `bset` (R192), OP 0xAC, class P. -/
  | bset (f : Fields)
  /-- `bperm` (R193), OP 0xAD, class V. -/
  | bperm (f : Fields)
  /-- `cfd` (R199), OP 0xAE, class V. -/
  | cfd (f : Fields)
  /-- `kadd` (R200), OP 0xAF, class V. -/
  | kadd (f : Fields)
  /-- `pfill` (R190), OP 0xB0, class P. -/
  | pfill (f : Fields)
  /-- `ldl` (R142), OP 0xC0, class M. -/
  | ldl (f : Fields)
  /-- `stl` (R142), OP 0xC1, class M. -/
  | stl (f : Fields)
  /-- `ldx` (R227), OP 0xC2, class M. -/
  | ldx (f : Fields)
  /-- `stx` (R227), OP 0xC3, class M. -/
  | stx (f : Fields)
  /-- `atoms` (R230), OP 0xC4, class M. -/
  | atoms (f : Fields)
  /-- `fnc` (R233), OP 0xC5, class M. -/
  | fnc (f : Fields)
  /-- `bini` (R237), OP 0xC6, class M. -/
  | bini (f : Fields)
  /-- `barv` (R237), OP 0xC7, class M. -/
  | barv (f : Fields)
  /-- `bexp` (R237), OP 0xC8, class M. -/
  | bexp (f : Fields)
  /-- `bdrop` (R237), OP 0xC9, class M. -/
  | bdrop (f : Fields)
  /-- `btest` (R237), OP 0xCA, class M. -/
  | btest (f : Fields)
  /-- `wait` (R240), OP 0xCB, class M. -/
  | wait (f : Fields)
  /-- `kset` (R145), OP 0xCC, class S. -/
  | kset (f : SFields)
  /-- `gld` (R245), OP 0xD0, class E. -/
  | gld (f : Fields)
  /-- `gst` (R245), OP 0xD1, class E. -/
  | gst (f : Fields)
  /-- `gatom` (R245), OP 0xD2, class E. -/
  | gatom (f : Fields)
  /-- `watch` (R246), OP 0xD3, class E. -/
  | watch (f : Fields)
  /-- `cpy` (R289), OP 0xD4, class E. -/
  | cpy (f : Fields)
  /-- `gth` (R294), OP 0xD5, class E. -/
  | gth (f : Fields)
  /-- `sct` (R294), OP 0xD6, class E. -/
  | sct (f : Fields)
  /-- `probe` (R296), OP 0xD7, class E. -/
  | probe (f : Fields)
  /-- `chsend` (R297), OP 0xD8, class E. -/
  | chsend (f : Fields)
  /-- `chrecv` (R298), OP 0xD9, class E. -/
  | chrecv (f : Fields)
  /-- `chrel` (R299), OP 0xDA, class E. -/
  | chrel (f : Fields)
  /-- `chpoll` (R300), OP 0xDB, class E. -/
  | chpoll (f : Fields)
  /-- `eqry` (R301), OP 0xDC, class E. -/
  | eqry (f : Fields)
  /-- `ecncl` (R302), OP 0xDD, class E. -/
  | ecncl (f : Fields)
  /-- `mma` (R318), OP 0xE0, class X. -/
  | mma (f : Fields)
  /-- `mmasp` (R320), OP 0xE1, class X. -/
  | mmasp (f : Fields)
  /-- `scout` (R323), OP 0xE2, class X. -/
  | scout (f : Fields)
  /-- `hzn` (R325), OP 0xE3, class X. -/
  | hzn (f : Fields)
  /-- `drain` (R328), OP 0xE4, class X. -/
  | drain (f : Fields)
  /-- `azero` (R329), OP 0xE5, class X. -/
  | azero (f : Fields)
  /-- `qnt` (R330), OP 0xE6, class X. -/
  | qnt (f : Fields)
  /-- `trq` (R331), OP 0xE7, class X. -/
  | trq (f : Fields)
  /-- `bput` (R333), OP 0xE8, class X. -/
  | bput (f : Fields)
  /-- `mop` (R334), OP 0xE9, class X. -/
  | mop (f : Fields)
  /-- `mrd` (R336), OP 0xEA, class X. -/
  | mrd (f : Fields)
  /-- `mwr` (R336), OP 0xEB, class X. -/
  | mwr (f : Fields)
  /-- The step TRAP_ENTRY (R362). -/
  | trapEntry (cause : Cause) (detail : Nat) (condw : Nat)
  /-- The step COHORT_FAULT (R366). -/
  | cohortFault (cause : Cause)
  /-- The step GANG_END (R96, R238). -/
  | gangEnd
  /-- The step SLOT_PARK (R167). -/
  | slotPark (slot : Nat)
  /-- The step SLOT_EXCHANGE (R167). -/
  | slotExchange
  /-- The step SLOT_MERGE (R168). -/
  | slotMerge
  /-- The step STACK_POP (R169). -/
  | stackPop (slot : Nat)
  /-- The step WAIT_SATISFIED (R242). -/
  | waitSatisfied (slot : Nat)
  /-- The step WAIT_TIMEOUT (R240). -/
  | waitTimeout (slot : Nat)
  /-- The step HANG (R240, R248). -/
  | hang (slot : Nat)
  /-- The step PROMISE_MISSED (R240). -/
  | promiseMissed (slot : Nat)
  /-- The step FENCE_RELEASE (R233). -/
  | fenceRelease (slot : Nat)
  /-- The step CHANNEL_SLOT_CLAIM (R297). -/
  | channelSlotClaim (slot : Nat)
  /-- The step CHANNEL_MESSAGE_TAKE (R298). -/
  | channelMessageTake (slot : Nat)
  /-- The step CHANNEL_SLOT_FREE (R299). -/
  | channelSlotFree (slot : Nat)
  /-- The step ENGINE_ISSUE_HOLD_END (R248, R257). -/
  | engineIssueHoldEnd (slot : Nat)
  /-- The step PROBE_PASS (R267, R268). -/
  | probePass (op : Nat)
  /-- The step LOCK_WAIT_END (R261). -/
  | lockWaitEnd (op : Nat)
  /-- The step ITEM_PERFORM (R253, R288). -/
  | itemPerform (op : Nat) (item : Nat)
  /-- The step OPERATION_COMPLETION (R287). -/
  | operationCompletion (op : Nat)
  /-- The step WATCH_COMPLETE (R246). -/
  | watchComplete (op : Nat)
  /-- The step CHANNEL_LANDING (R270). -/
  | channelLanding (op : Nat)
  /-- The step MATRIX_OP_START (R306, R307). -/
  | matrixOpStart (pair : Nat)
  /-- The step MATRIX_OP_COMPLETE (R307, R316). -/
  | matrixOpComplete (pair : Nat)
  /-- The step ROUTER_GRANT (R272, R273, R280). -/
  | routerGrant (router : Nat) (out : Nat)
  /-- The step SLACK_TICK (R279, R281). -/
  | slackTick
  /-- The step ROUTER_POWER_OFF (R275). -/
  | routerPowerOff (router : Nat)
  /-- The step ROUTER_WAKE (R275). -/
  | routerWake (router : Nat)
  /-- The step SLICE_SERVE (R283). -/
  | sliceServe (slice : Nat)
  /-- The step SLICE_APPLY (R222). -/
  | sliceApply (slice : Nat)
  /-- The step CXL_SEND (R392). -/
  | cxlSend (link : Nat)
  /-- The step CXL_RESPONSE_TIMEOUT (R392). -/
  | cxlResponseTimeout (link : Nat)
  /-- The step FABRIC_EGRESS_GRANT (R395). -/
  | fabricEgressGrant (port : Nat)
  /-- The step FABRIC_PORT_TIMEOUT (R394). -/
  | fabricPortTimeout (port : Nat)
  /-- The step FABRIC_LINK_DOWN (R394). -/
  | fabricLinkDown (port : Nat)
  /-- The step FABRIC_LINK_RETURN (R394). -/
  | fabricLinkReturn (port : Nat)
  /-- The step FLIT_RETRANSMIT (R393). -/
  | flitRetransmit (port : Nat)
  /-- The step PORT_SWITCH_RELEASE (R394). -/
  | portSwitchRelease (node : Nat)
  /-- The step SUBMISSION (R342, R343, R347). -/
  | submission (part : Nat) (queue : Nat) (offset : Nat) (bytes : List (BitVec 8))
  /-- The step PACKET_START (R345). -/
  | packetStart (part : Nat) (queue : Nat)
  /-- The step PACKET_COMPLETE (R345). -/
  | packetComplete (part : Nat) (queue : Nat)
  /-- The step LAUNCH_PACKET (R347, R348). -/
  | launchPacket (part : Nat) (queue : Nat)
  /-- The step COPY_PACKET (R346). -/
  | copyPacket (part : Nat) (queue : Nat)
  /-- The step SIGNAL_PACKET (R346). -/
  | signalPacket (part : Nat) (queue : Nat)
  /-- The step INSTALL_PACKET (R408). -/
  | installPacket (part : Nat) (queue : Nat)
  /-- The step REMOVE_HANDLE (R415). -/
  | removeHandle (part : Nat) (queue : Nat)
  /-- The step QUERY_QUOTE (R421). -/
  | queryQuote (part : Nat) (queue : Nat)
  /-- The step QUERY_IDENTITY (R421). -/
  | queryIdentity (part : Nat) (queue : Nat)
  /-- The step QUERY_REVISION (R421). -/
  | queryRevision (part : Nat) (queue : Nat)
  /-- The step DISPATCH_CONSIDER (R351, R352, R353, R361, R384). -/
  | dispatchConsider (part : Nat)
  /-- The step GANG_TO_PENDING (R355). -/
  | gangToPending
  /-- The step PENDING_ENTERS_ACTIVE (R356). -/
  | pendingEntersActive
  /-- The step ACTIVE_ROTATION_OUT (R356). -/
  | activeRotationOut
  /-- The step CHILD_START (R359). -/
  | childStart (part : Nat)
  /-- The step PREEMPT_STOP (R369). -/
  | preemptStop (cohort : Nat)
  /-- The step QUIESCE (R371). -/
  | quiesce (cohort : Nat)
  /-- The step SAVE_REPORT (R373, R374). -/
  | saveReport (cohort : Nat)
  /-- The step RESTORE (R376, R378). -/
  | restore (cohort : Nat)
  /-- The step PREEMPT (R399). -/
  | preempt (part queue seq cohort : Nat)
  /-- The step RESUME (R399). -/
  | resume (part queue seq cohort : Nat)
  /-- The step END (R399). -/
  | endLaunch (part queue seq : Nat)
  /-- The step INVAL (R383, R399). -/
  | inval (part pasid first bytes : Nat)
  /-- The step REVOKE (R397, R399). -/
  | revoke (part pasid : Nat)
  /-- The step ALLOW (R397, R399). -/
  | allow (part pasid : Nat)
  /-- The step QPRI (R399). -/
  | qpri (part queue priority : Nat)
  /-- The step HALT (R403). -/
  | halt (part : Nat)
  /-- The step SWAP (R404). -/
  | swap (part image : Nat)
  /-- The step COMMAND_DONE (R399). -/
  | commandDone (part : Nat)
  /-- The step INVALIDATION_COMPLETE (R383). -/
  | invalidationComplete (part : Nat)
  /-- The step HOST_MEMORY_REQUEST (R396, R402). -/
  | hostMemoryRequest (req : HostReq)
  /-- The step CONTROL_ACCESS_REFUSED (R398): an access of len bytes at a control space, a read or a write of bytes. -/
  | controlAccessRefused (part : Nat) (offset len : Nat) (write : Option (List (BitVec 8)))
  /-- The step INTERRUPT_REMAP_WRITE (R401). -/
  | interruptRemapWrite (part vector word : Nat) (value : BitVec 64)
  /-- The step REGISTER_WRITE (R424). -/
  | registerWrite (src offset : Nat) (value : BitVec 64)
  /-- The step PORTEN_WRITE (R394, R424). -/
  | portenWrite (src : Nat) (value : BitVec 64)
  /-- The step EXTEND (R420, R424). -/
  | extend (src index : Nat)
  /-- The step POWER_UP (R418). -/
  | powerUp
  /-- The step BOOT_IMAGE_WRITE (R418). -/
  | bootImageWrite (offset : Nat) (bytes : Sent (List (BitVec 8)))
  /-- The step NODE_WORD_WRITE (R418). -/
  | nodeWordWrite (value : Sent (BitVec 64))
  /-- The step BOOT_STATUS_WRITE (R418). -/
  | bootStatusWrite (src : Nat) (value : BitVec 64)
  /-- The step IMAGE_VERIFIED (R418). -/
  | imageVerified
  /-- The step EQUINOX_CLOCK_CHANGE (R360). -/
  | equinoxClockChange (part : Nat)
  /-- The step THERMAL_THROTTLE (R422). -/
  | thermalThrottle (die : Nat) (start : Bool)
  /-- The step ERROR_RECORD (R423, R211). -/
  | errorRecord (cls part unit count : Nat) (addr : Nat)
  /-- The step PARTITION_SETUP (R420, R424). -/
  | partitionSetup (src n offset : Nat) (value : BitVec 64)
  deriving DecidableEq, Repr

end Sys2Proof
end

