-- ==== Sys2Proof/Machine/Fields.lean ====
section
/-! DEFINITION. Operand codes, type codes and what each instruction's entry accepts in each field (spec/03 R45 to R63, and
the entries of spec/05, 06, 08, 11, 13, 14, 17): the static decode faults of R40. -/
namespace Sys2Proof



/-! ## Type codes (R51) -/

/-- A TYPE field (R51). -/
inductive Ty
  | b32 | i32 | n32 | i64 | n64 | i16 | n16 | i8 | n8 | f32 | f16 | bf16 | e4m3 | e5m2 | b64 | b128
  deriving DecidableEq, Repr

/-- The type of a code (R51). -/
def Ty.ofCode : Nat → Ty
  | 0 => .b32 | 1 => .i32 | 2 => .n32 | 3 => .i64 | 4 => .n64 | 5 => .i16 | 6 => .n16 | 7 => .i8 | 8 => .n8
  | 9 => .f32 | 10 => .f16 | 11 => .bf16 | 12 => .e4m3 | 13 => .e5m2 | 14 => .b64 | _ => .b128

/-- Width of one element in bits (R51, R66). -/
def Ty.width : Ty → Nat
  | .b32 | .i32 | .n32 | .f32 => 32
  | .i64 | .n64 | .b64 => 64
  | .i16 | .n16 | .f16 | .bf16 => 16
  | .i8 | .n8 | .e4m3 | .e5m2 => 8
  | .b128 => 128

/-- Number of v registers of the lane form (R51). -/
def Ty.regs : Ty → Nat
  | .i64 | .n64 | .b64 => 2
  | .b128 => 4
  | _ => 1

/-- Number of packed elements (R51, R137). -/
def Ty.elems : Ty → Nat
  | .i16 | .n16 | .f16 | .bf16 => 2
  | .i8 | .n8 | .e4m3 | .e5m2 => 4
  | _ => 1

/-- Two's complement types (R66). -/
def Ty.signed : Ty → Bool
  | .i32 | .i64 | .i16 | .i8 => true
  | _ => false

/-- Float types (R68). -/
def Ty.isFloat : Ty → Bool
  | .f32 | .f16 | .bf16 | .e4m3 | .e5m2 => true
  | _ => false

/-- Integer types i and n (R66). -/
def Ty.isInt : Ty → Bool
  | .i32 | .n32 | .i64 | .n64 | .i16 | .n16 | .i8 | .n8 => true
  | _ => false

/-! ## Subfields of MINOR and of the control field C -/

/-- Bits lo to lo + n - 1 of x, as a number. -/
def bits (x lo n : Nat) : Nat := (x >>> lo) % 2 ^ n

def Fields.ty (f : Fields) : Ty := .ofCode (bits f.minor.toNat 6 4)
/-- RND of class V (R53). -/
def Fields.rnd (f : Fields) : Nat := bits f.minor.toNat 3 3
/-- SUB of class V (R53). -/
def Fields.sub (f : Fields) : Nat := bits f.minor.toNat 0 3
/-- CMP of class K (R54). -/
def Fields.cmp (f : Fields) : Nat := bits f.minor.toNat 2 4
/-- COMB of class K (R54). -/
def Fields.comb (f : Fields) : Nat := bits f.minor.toNat 0 2
/-- AM of the access forms of class M (R56). -/
def Fields.am (f : Fields) : Nat := bits f.minor.toNat 4 2
/-- KW of the access forms of class M (R56). -/
def Fields.kw (f : Fields) : Nat := bits f.minor.toNat 1 3
/-- SCOPE of the ordered forms of class M (R57). -/
def Fields.scope (f : Fields) : Nat := bits f.minor.toNat 7 3
/-- ORD of the ordered forms of class M (R57). -/
def Fields.ord (f : Fields) : Nat := bits f.minor.toNat 4 3
/-- SUB of the ordered forms of class M (R57). -/
def Fields.osub (f : Fields) : Nat := bits f.minor.toNat 0 4
/-- SLK of class E (R59). -/
def Fields.slk (f : Fields) : Nat := bits f.minor.toNat 6 4
/-- ESUB of class E (R59). -/
def Fields.esub (f : Fields) : Nat := bits f.minor.toNat 0 6
/-- SCOPE in ESUB (R59). -/
def Fields.escope (f : Fields) : Nat := bits f.minor.toNat 3 3
/-- ORD in ESUB (R59). -/
def Fields.eord (f : Fields) : Nat := bits f.minor.toNat 0 3
/-- PLN of class X (R60). -/
def Fields.pln (f : Fields) : Nat := bits f.minor.toNat 7 3
/-- MREG of class X (R60). -/
def Fields.mreg (f : Fields) : Nat := bits f.minor.toNat 4 3
/-- MMODE of class X (R60). -/
def Fields.mmode (f : Fields) : Nat := bits f.minor.toNat 2 2
/-- XSUB of class X (R60). -/
def Fields.xsub (f : Fields) : Nat := bits f.minor.toNat 0 2
/-- POP of PCTL (R58). -/
def Fields.pop (f : Fields) : Nat := bits f.c.toNat 5 4
/-- AX of PCTL (R58): false is x. -/
def Fields.ax (f : Fields) : Bool := f.c.toNat.testBit 4
/-- EDGE of PCTL (R58). -/
def Fields.edge (f : Fields) : Nat := bits f.c.toNat 2 2

/-! ## Operand codes (R47) -/

/-- What an operand code names (R47). -/
inductive Opnd
  | v (n : Nat) | s (n : Nat) | p (n : Nat) | o (n : Nat) | l (n : Nat)
  | x | y | k
  | con (n : Nat)
  | lit32 | lit64
  | reserved
  deriving DecidableEq, Repr

/-- The operand of a code (R47). -/
def Opnd.ofCode (c : Nat) : Opnd :=
  if c < 256 then .v c
  else if c < 320 then .s (c - 256)
  else if c < 336 then .p (c - 320)
  else if c < 344 then .o (c - 336)
  else if c < 346 then .l (c - 344)
  else if c = 346 then .x
  else if c = 347 then .y
  else if c = 348 then .k
  else if c < 352 then .reserved
  else if c < 384 then .con c
  else if c = 384 then .lit32
  else if c = 385 then .lit64
  else .reserved

/-- What an instruction's entry accepts in one of its fields D, A, B, C (R46, R47, R49, R50). -/
inductive Pos
  /-- not used: must be zero -/
  | unused
  /-- a control field, checked by the entry -/
  | ctl
  /-- zero, and another value is a wrong operand (R237) -/
  | zeroIll
  /-- an index below n (R50) -/
  | idx (n : Nat)
  /-- lane destination of w registers; an o code too when w is 1 (R117) -/
  | vD (w : Nat)
  /-- a v code only, of w registers -/
  | vOnly (w : Nat)
  /-- v codes of w registers or an s code (R141, R244) -/
  | vs (w : Nat)
  /-- any lane source of the type (R117) -/
  | src (t : Ty)
  /-- an s code -/
  | sOnly
  /-- zero or an s code (R237) -/
  | sOrZero
  /-- s code, inline integer or literal of the type (R106) -/
  | sSrc (t : Ty)
  /-- s code, inline constant or literal of the type (R190, R191) -/
  | sVal (t : Ty)
  /-- predicate destination, not p0 (R21) -/
  | pD
  /-- predicate source -/
  | pS
  /-- offset of a memory operand (R56, R57): s code, inline integer, literal, and a v code if allowed -/
  | off (vOk : Bool)
  /-- as off, but zero names no offset (R57) -/
  | offOrZero (vOk : Bool)
  /-- s code or 64-bit literal (R312) -/
  | word64
  /-- value operand of the matrix instructions (R312) -/
  | fval
  deriving DecidableEq, Repr

/-- An operand field in the sense of R49: one that may hold a code of R47. A field of R237 that is to be 0 and raises ILLEGAL_OPERAND otherwise
is none, and takes no literal (log 43). -/
def Pos.isOperand : Pos → Bool
  | .unused | .ctl | .idx _ | .zeroIll => false
  | _ => true

/-- Whether an inline code is accepted for a type (R48). -/
def conOk (t : Ty) (c : Nat) : Bool :=
  if c < 376 then !(t = .e5m2 && (c = 361 || c = 363 || c = 365 || c = 367))
  else match t with
    | .f32 | .f16 | .bf16 | .e5m2 => true
    | .e4m3 => c != 383
    | _ => false

/-- A 64-bit literal is accepted where the operand is 64 bits wide (R49). -/
def lit64Ok (t : Ty) : Bool := t.width = 64

/-- A v code of w registers is aligned (R20, R51). -/
def vAligned (w n : Nat) : Bool := n % w = 0

/-- Whether the code is accepted in the position; an unused field is checked apart. -/
def Pos.accepts (q : Pos) (code : Nat) : Bool :=
  match q, Opnd.ofCode code with
  | .unused, _ => true
  | .ctl, _ => true
  | .zeroIll, _ => code = 0
  | .idx n, _ => code < n
  | .vD w, .v n => vAligned w n
  | .vD w, .o _ => w = 1
  | .vOnly w, .v n => vAligned w n
  | .vs w, .v n => vAligned w n
  | .vs w, .s _ => w != 4
  | .src t, .v n => vAligned t.regs n
  | .src _, .s _ => true
  | .src _, .o _ => true
  | .src _, .l _ => true
  | .src _, .x => true
  | .src _, .y => true
  | .src _, .k => true
  | .src t, .con c => conOk t c
  | .src _, .lit32 => true
  | .src t, .lit64 => lit64Ok t
  | .sOnly, .s _ => true
  | .sOrZero, .s _ => true
  | .sOrZero, .v n => n = 0
  | .sSrc _, .s _ => true
  | .sSrc _, .con c => c < 376
  | .sSrc _, .lit32 => true
  | .sSrc t, .lit64 => lit64Ok t
  | .sVal _, .s _ => true
  | .sVal t, .con c => conOk t c
  | .sVal _, .lit32 => true
  | .sVal t, .lit64 => lit64Ok t
  | .pD, .p n => n != 0
  | .pS, .p _ => true
  | .off v, .v _ => v
  | .off _, .s _ => true
  | .off _, .con c => c < 376
  | .off _, .lit32 => true
  | .off _, .lit64 => true
  | .offOrZero v, .v n => v || n = 0
  | .offOrZero _, .s _ => true
  | .offOrZero _, .con c => c < 376
  | .offOrZero _, .lit32 => true
  | .offOrZero _, .lit64 => true
  | .word64, .s _ => true
  | .word64, .lit64 => true
  | .fval, .s _ => true
  | .fval, .con _ => true
  | .fval, .lit32 => true
  | _, _ => false

/-- Number of v registers a v code in this position names. -/
def Pos.regs : Pos → Nat
  | .vD w | .vOnly w | .vs w => w
  | .src t => t.regs
  | _ => 1

/-- What one instruction accepts: its four fields, whether its MINOR or a control field breaks its layout, whether some
field is a wrong operand by a rule of its own, and whether it is restricted to handler mode. -/
structure Shape where
  d : Pos := .unused
  a : Pos := .unused
  b : Pos := .unused
  c : Pos := .unused
  /-- a reserved MINOR or control value: RESERVED_FIELD -/
  res : Bool := false
  /-- a field that breaks a rule of its own: ILLEGAL_OPERAND with this detail -/
  ill : Option Nat := none
  priv : Bool := false
  deriving DecidableEq, Repr

/-! ## Checks of MINOR shared by entries -/

/-- TYPE in the list, RND 0, SUB at most m: else reserved (R53). -/
def resInt (f : Fields) (tys : List Ty) (m : Nat) : Bool := !(tys.contains f.ty) || f.rnd != 0 || f.sub > m
/-- TYPE in the list, RND at most r, SUB at most m: else reserved (R52, R53). -/
def resRnd (f : Fields) (tys : List Ty) (r m : Nat) : Bool := !(tys.contains f.ty) || f.rnd > r || f.sub > m

def tyAll : List Ty := [.i32, .n32, .i64, .n64, .i16, .n16, .i8, .n8]
def tySigned : List Ty := [.i32, .i64, .i16, .i8]
def tyArith : List Ty := [.i64, .n64, .i32, .n32]
def tyBits : List Ty := [.b32, .b64]
def tyFlt : List Ty := [.f32, .f16, .bf16]
def tyFlt5 : List Ty := [.f32, .f16, .bf16, .e4m3, .e5m2]

/-- The type pairs, rounding and `.sat` that `cvt` accepts (R136): destination, source, RND, sat. -/
def cvtAccepts (dt st : Ty) (rnd : Nat) (sat : Bool) : Bool :=
  if dt.isFloat && st.isFloat then
    dt != st && rnd ≤ 4 && (!sat || dt = .e4m3 || dt = .e5m2)
  else if tyFlt.contains dt && st.isInt then rnd ≤ 4 && !sat
  else if dt.isInt && tyFlt.contains st then rnd ≤ 4 && !sat
  else if dt.isInt && st.isInt then dt != st && rnd = 0
  else false

/-- As `cvtAccepts`, with equal types copying bits (R181). -/
def pldAccepts (dt st : Ty) (rnd : Nat) (sat : Bool) : Bool :=
  if dt = st then dt != .b128 && rnd = 0 && !sat else cvtAccepts dt st rnd sat

/-- Element selector bound of R137: E < max(ns, nd) / min(ns, nd). -/
def selOk (dt st : Ty) (e : Nat) : Bool := e < max dt.elems st.elems / min dt.elems st.elems

/-- The system register numbers (R102). -/
def sregNames : List Nat := [1, 2, 3, 4, 5, 6, 7, 8, 9, 10, 11, 12, 13, 0x20, 0x21]
/-- Those that `syswr` may write (R102). -/
def sregWritable : List Nat := [1, 2, 3]

/-- Width of one AOP (R57). -/
def aopTy : Nat → Ty
  | 1 | 13 | 15 => .n64
  | 0 | 2 | 4 => .i32
  | 3 | 5 => .n32
  | 6 | 7 | 8 => .f32
  | _ => .b32

/-- The types an operation of R183 accepts: POP and TYPE. -/
def popTyOk (pop : Nat) (t : Ty) : Bool :=
  if pop ≤ 4 then [Ty.f32, .f16, .bf16, .i32, .n32, .i16, .n16, .i8, .n8].contains t
  else if pop ≤ 7 then t = .b32
  else if pop ≤ 9 then tyFlt.contains t
  else if pop = 10 then t = .b32
  else false

/-- RND and `.sat` of R183: RND for float operations that round, `.sat` for integer add, sub and mul. -/
def popMinorRes (f : Fields) (sub : Nat) : Bool :=
  let rounds := f.ty.isFloat && f.pop ≤ 2
  !(popTyOk f.pop f.ty) || f.rnd > (if rounds then 4 else 0) || (sub = 1 && !(f.ty.isInt && f.pop ≤ 2))

/-- The types of the scratchpad words (R114). -/
def tySld : List Ty := [.b32, .i32, .n32, .b64, .i64, .n64]
/-- The types of `ldl`, `stl`, `ldx` and `stx` (R141). -/
def tyLdl : List Ty := [.i8, .n8, .i16, .n16, .b32, .i32, .n32, .b64, .i64, .n64, .b128]

/-- The reserved values of an access form's MINOR (R56). -/
def resAccess (f : Fields) (tys : List Ty) : Bool :=
  !(tys.contains f.ty) || f.minor.toNat % 2 != 0 || (f.kw != 0 && f.am != 3)

/-- The offset position of an access form (R56). -/
def accessB (f : Fields) (vOk : Bool) : Pos := if f.am = 0 then .unused else .off (vOk && f.am = 1)

/-- The reserved values of an ordered form's MINOR (R57, R225). -/
def resOrd (f : Fields) (ords : List Nat) (sub : Nat) : Bool := f.scope > 5 || !(ords.contains f.ord) || f.osub > sub

/-- The reserved values of ESUB in the single accesses (R59, R225). -/
def resSingle (f : Fields) (ords : List Nat) : Bool := f.escope > 5 || !(ords.contains f.eord)

/-- SLK 15 is a wrong operand (R59); its DETAIL is 0, since it stands in no operand field (log 43). -/
def slkIll (f : Fields) : Option Nat := if f.slk = 15 then some 0 else none

/-- With AUX the auxiliary word is the register after D (R285). -/
def auxIll (f : Fields) : Option Nat :=
  if f.slk = 15 || (f.esub % 2 = 1 && f.d.toNat ≥ 319) then some 0 else none

/-- FORM of `cpy` (R289). -/
def cpyForm (f : Fields) : Nat := f.esub >>> 3
/-- The reserved combinations of ESUB and CCTL of `cpy` that the word alone shows (R289, R290): with CNV 1 also what `cvt` accepts for no format of
the record (R136, R291). -/
def resCpy (f : Fields) : Bool :=
  let form := cpyForm f
  let c := f.c.toNat
  let lt := bits c 0 4
  let rnd := bits c 4 3
  let sat := bits c 7 1
  let cnv := bits c 8 1
  form > 5 || bits f.esub 1 2 != 0 ||
  (form != 4 &&
    (lt = 15 || rnd > 4 ||
     (lt != 0 && (cnv = 0 || (form != 0 && form != 2))) ||
     (cnv = 1 && (form = 1 || form = 3)) ||
     (sat = 1 && (form = 1 || form = 3)) ||
     (cnv = 0 && (form = 0 || form = 2 || form = 5) && (rnd != 0 || sat != 0)) ||
     (cnv = 1 && (form = 0 || form = 2) && !((Ty.ofCode lt).isFloat || (Ty.ofCode lt).isInt)) ||
     (cnv = 1 && sat = 1 && form = 0 && !(Ty.ofCode lt = .e4m3 || Ty.ofCode lt = .e5m2)) ||
     (cnv = 1 && sat = 1 && form = 2 && !(Ty.ofCode lt).isFloat)))

/-- The last five instructions of R284 carry SLK 0 and ESUB 0. -/
def resPoll (f : Fields) : Bool := f.slk != 0 || f.esub != 0

/-- Class K (R54): TYPE in the list, CMP by the type, COMB; which fields are operands under COMB 3: log 43. -/
def kShape (f : Fields) (tys : List Ty) (src : Pos) : Shape :=
  { d := .pD, a := src, b := src, c := if f.comb = 0 then .unused else .pS,
    res := !(tys.contains f.ty) || f.cmp > (if f.ty.isFloat then 13 else 5) || f.comb = 3 }

/-- A scalar form (R106): n sources. -/
def sShape (f : Fields) (tys : List Ty) (m n : Nat) : Shape :=
  { d := .sOnly, a := .sSrc f.ty, b := if n ≥ 2 then .sSrc f.ty else .unused,
    c := if n ≥ 3 then .sSrc f.ty else .unused, res := resInt f tys m }

/-- A lane form whose n sources have the type of the result (R117, R121). -/
def vShape (f : Fields) (tys : List Ty) (m n : Nat) : Shape :=
  { d := .vD f.ty.regs, a := .src f.ty, b := if n ≥ 2 then .src f.ty else .unused,
    c := if n ≥ 3 then .src f.ty else .unused, res := resInt f tys m }

/-- A rounding float form of n sources (R128). -/
def fShape (f : Fields) (n : Nat) : Shape :=
  { vShape f tyFlt 0 n with res := resRnd f tyFlt 4 0 }

/-- A count of bits (R124): one register, whatever the type. -/
def cntShape (f : Fields) : Shape := { d := .vD 1, a := .src f.ty, res := resInt f tyBits 0 }

/-- A plane form (R172): descriptors in D, A and, where named, B. -/
def pShape (b : Pos) (res : Bool) : Shape := { d := .sOnly, a := .sOnly, b := b, c := .ctl, res := res }

/-- Class J (R55): D by the entry. -/
def jShape (d : Pos) : Shape := { d := d }

/-- A barrier instruction (R237). -/
def barShape (d c : Pos) (f : Fields) (ords : List Nat) : Shape :=
  { d := d, a := .sOnly, b := .offOrZero false, c := c, res := resOrd f ords 0 }

/-- What each instruction of classes V, K, M, P, E and X accepts, by its entry. C of `lea.n64` is one 32-bit operand (R126, log 43); which fields are
operands under a reserved MINOR: log 43. -/
def opShape (op : Nat) (f : Fields) : Shape :=
  match op with
  | 0x01 => -- nop (R93)
    { res := f.minor != 0 }
  | 0x0C => -- exit (R96)
    { res := f.minor != 0 }
  | 0x0D => -- yield (R97)
    { res := f.minor != 0 }
  | 0x0E => -- trap (R98)
    { a := .sSrc .n32, res := f.minor != 0 }
  | 0x0F => -- tret (R99)
    { res := f.minor.toNat > 2, priv := true }
  | 0x10 => -- brk (R98)
    { res := f.minor != 0 }
  | 0x13 => -- launch (R359)
    { d := .sOnly, a := .vs 2, res := f.esub != 0, ill := slkIll f }
  | 0x14 => -- elect (R196)
    { d := .pD, res := f.minor != 0 }
  | 0x20 => -- sadd (R108)
    sShape f tyArith 1 2
  | 0x21 => -- ssub (R108)
    sShape f tyArith 1 2
  | 0x22 => -- smul (R108)
    sShape f tyArith 1 2
  | 0x23 => -- smulh (R108)
    sShape f tyArith 0 2
  | 0x24 => -- sdiv (R109)
    sShape f tyArith 0 2
  | 0x25 => -- srem (R109)
    sShape f tyArith 0 2
  | 0x26 => -- sand (R108)
    sShape f [.b64, .b32] 0 2
  | 0x27 => -- sor (R108)
    sShape f [.b64, .b32] 0 2
  | 0x28 => -- sxor (R108)
    sShape f [.b64, .b32] 0 2
  | 0x29 => -- sshl (R110)
    { sShape f tyArith 0 2 with b := .sSrc .n64 }
  | 0x2A => -- sshr (R110)
    { sShape f [.n64, .n32] 0 2 with b := .sSrc .n64 }
  | 0x2B => -- ssra (R110)
    { sShape f [.i64, .i32] 0 2 with b := .sSrc .n64 }
  | 0x2C => -- smin (R108)
    sShape f tyArith 0 2
  | 0x2D => -- smax (R108)
    sShape f tyArith 0 2
  | 0x2E => -- scmp (R113)
    kShape f tyArith (.sSrc f.ty)
  | 0x2F => -- ssel (R108)
    sShape f [.b64] 0 3
  | 0x30 => -- smov (R108)
    sShape f [.b64, .i64, .n64, .i32, .n32] 0 1
  | 0x31 => -- sbfe (R111)
    sShape f [.i64, .n64] 0 2
  | 0x32 => -- sbfi (R111)
    sShape f [.b64] 0 3
  | 0x33 => -- spopc (R112)
    sShape f [.b64, .b32] 0 1
  | 0x34 => -- sclz (R112)
    sShape f [.b64, .b32] 0 1
  | 0x35 => -- sctz (R112)
    sShape f [.b64, .b32] 0 1
  | 0x36 => -- sld (R114)
    { d := .sOnly, a := .sOnly, b := accessB f false, res := resAccess f tySld }
  | 0x37 => -- sst (R114)
    { d := .sOnly, a := .sOnly, b := accessB f false, res := resAccess f tySld }
  | 0x38 => -- rdlane (R116)
    { d := .sOnly, a := .vOnly f.ty.regs, b := .sSrc .n64, res := resInt f [.b32, .i32, .n32, .b64] 0 }
  | 0x39 => -- wrlane (R116)
    { d := .vOnly f.ty.regs, a := .sSrc f.ty, b := .sSrc .n64, res := resInt f [.b32, .i32, .n32, .b64] 0 }
  | 0x3A => -- smad (R108)
    sShape f tyArith 1 3
  | 0x3B => -- slea (R108)
    sShape f [.n64] 0 3
  | 0x40 => -- add (R121)
    vShape f tyAll 1 2
  | 0x41 => -- sub (R121)
    vShape f tyAll 1 2
  | 0x42 => -- mul (R121)
    vShape f tyAll 1 2
  | 0x43 => -- mulh (R121)
    vShape f tyAll 0 2
  | 0x44 => -- mad (R121)
    vShape f tyArith 1 3
  | 0x45 => -- min (R121)
    vShape f tyAll 0 2
  | 0x46 => -- max (R121)
    vShape f tyAll 0 2
  | 0x47 => -- abs (R121)
    vShape f tySigned 1 1
  | 0x48 => -- neg (R121)
    vShape f tySigned 1 1
  | 0x49 => -- and (R121)
    vShape f tyBits 0 2
  | 0x4A => -- or (R121)
    vShape f tyBits 0 2
  | 0x4B => -- xor (R121)
    vShape f tyBits 0 2
  | 0x4C => -- not (R121)
    vShape f tyBits 0 1
  | 0x4D => -- shl (R122)
    vShape f tyAll 0 2
  | 0x4E => -- shr (R122)
    vShape f [.n32, .n64, .n16, .n8] 0 2
  | 0x4F => -- sra (R122)
    vShape f tySigned 0 2
  | 0x50 => -- rotl (R122)
    vShape f tyBits 0 2
  | 0x51 => -- bfe (R123)
    vShape f [.i32, .n32] 0 2
  | 0x52 => -- bfi (R123)
    vShape f [.b32] 0 3
  | 0x53 => -- popc (R124)
    cntShape f
  | 0x54 => -- clz (R124)
    cntShape f
  | 0x55 => -- ctz (R124)
    cntShape f
  | 0x56 => -- brev (R124)
    vShape f tyBits 0 1
  | 0x57 => -- sel (R125)
    { vShape f tyBits 0 2 with c := .pS }
  | 0x58 => -- icmp (R127)
    kShape f tyAll (.src f.ty)
  | 0x59 => -- mov (R125)
    vShape f tyBits 0 1
  | 0x5A => -- dot4 (R126)
    { vShape f [.i8, .n8] 1 2 with c := .src (if f.ty = .i8 then .i32 else .n32) }
  | 0x5B => -- lea (R126)
    { vShape f [.n32, .n64] 0 2 with c := .src .n32 }
  | 0x5C => -- prmt (R126)
    vShape f [.b32] 0 3
  | 0x70 => -- fadd (R128)
    fShape f 2
  | 0x71 => -- fsub (R128)
    fShape f 2
  | 0x72 => -- fmul (R128)
    fShape f 2
  | 0x73 => -- fma (R128)
    fShape f 3
  | 0x74 => -- fmin (R129)
    vShape f tyFlt 1 2
  | 0x75 => -- fmax (R129)
    vShape f tyFlt 1 2
  | 0x76 => -- fabs (R128)
    vShape f tyFlt5 0 1
  | 0x77 => -- fneg (R128)
    vShape f tyFlt5 0 1
  | 0x78 => -- fcmp (R130)
    kShape f tyFlt (.src f.ty)
  | 0x79 => -- fclass (R131)
    vShape f tyFlt 0 1
  | 0x7A => -- rcp (R132)
    fShape f 1
  | 0x7B => -- rsqrt (R132)
    fShape f 1
  | 0x7C => -- sqrt (R132)
    fShape f 1
  | 0x7D => -- ex2 (R132)
    fShape f 1
  | 0x7E => -- lg2 (R132)
    fShape f 1
  | 0x7F => -- sinpi (R132)
    fShape f 1
  | 0x80 => -- cospi (R132)
    fShape f 1
  | 0x81 => -- frnd (R134)
    { fShape f 1 with res := resRnd f tyFlt 5 0 }
  | 0x82 => -- frac (R134)
    fShape f 1
  | 0x83 => -- ldexp (R134)
    { fShape f 2 with b := .src .i32 }
  | 0x84 => -- cvt (R136)
    let st := Ty.ofCode (f.b.toNat % 16)
    { d := .vD f.ty.regs, a := .src st, b := .ctl,
      res := f.b.toNat ≥ 16 || !(cvtAccepts f.ty st f.rnd (f.sub % 2 = 1)) || !(selOk f.ty st (f.sub / 2)) }
  | 0x85 => -- cvtef (R138)
    { d := .vD 1, a := .src .f32, b := .ctl, c := .vOnly 1,
      res := f.b.toNat != 9 || !([Ty.f16, .bf16, .e4m3, .e5m2].contains f.ty) || f.rnd > 4 ||
        (f.sub % 2 = 1 && f.ty.width != 8) || !(selOk f.ty .f32 (f.sub / 2)),
      ill := if f.c = f.d then some 3 else none }
  | 0x86 => -- fdot2 (R135)
    { d := .vD 1, a := .src f.ty, b := .src f.ty, c := .src .f32, res := resRnd f [.f16, .bf16] 4 0 }
  | 0x90 => -- pand (R139)
    { d := .pD, a := .pS, b := .pS, res := f.minor != 0 }
  | 0x91 => -- por (R139)
    { d := .pD, a := .pS, b := .pS, res := f.minor != 0 }
  | 0x92 => -- pxor (R139)
    { d := .pD, a := .pS, b := .pS, res := f.minor != 0 }
  | 0x93 => -- pnot (R139)
    { d := .pD, a := .pS, res := f.minor != 0 }
  | 0x94 => -- pset (R140)
    { d := .pD, a := .src f.ty, res := resInt f tyBits 0 }
  | 0x95 => -- pget (R140)
    { d := .vD 1, a := .pS, res := resInt f [.n32] 1 }
  | 0x96 => -- vote (R195)
    { d := .sOnly, a := .pS, b := if f.sub = 3 then .sSrc .n64 else .unused, res := resInt f [.b32] 3 }
  | 0xA0 => -- mvn (R191)
    { d := .vOnly f.ty.regs, a := .src f.ty, b := .sSrc .i32,
      c := if f.sub / 2 = 1 then .sVal f.ty else .unused, res := resInt f tyBits 7 }
  | 0xA1 => -- pdesc (R180)
    { d := .sOnly, a := .sOnly, res := f.minor != 0 }
  | 0xA2 => -- pld (R181)
    pShape .unused (f.c.toNat % 32 != 0 || f.sub > 1 || !(pldAccepts f.ty (.ofCode f.pop) f.rnd (f.sub = 1)))
  | 0xA3 => -- pst (R181)
    pShape .unused (f.c.toNat % 32 != 0 || f.sub > 1 || !(pldAccepts f.ty (.ofCode f.pop) f.rnd (f.sub = 1)))
  | 0xA4 => -- pew (R183)
    pShape (if f.pop = 10 then .unused else .sOnly) (f.c.toNat % 32 != 0 || f.sub > 1 || popMinorRes f f.sub)
  | 0xA5 => -- pshift (R184)
    pShape (.sSrc .b64) (f.c.toNat % 4 != 0 || f.edge = 3 || f.pop != 0 || f.minor != 0)
  | 0xA6 => -- prot (R184)
    pShape (.sSrc .b64) (f.c.toNat % 4 != 0 || f.edge != 0 || f.pop != 0 || f.minor != 0)
  | 0xA7 => -- pspread (R185)
    pShape .unused (f.c.toNat % 4 != 0 || f.edge != 0 || f.pop != 0 || f.minor != 0)
  | 0xA8 => -- pfold (R186)
    pShape .unused (f.c.toNat % 16 != 0 || [1, 2, 10].contains f.pop || f.sub > 1 || popMinorRes f f.sub)
  | 0xA9 => -- prefold (R188)
    { d := .sOnly, a := .sOnly, res := f.minor != 0 }
  | 0xAA => -- ptrans (R189)
    { d := .sOnly, a := .sOnly, res := f.minor != 0 }
  | 0xAB => -- pscan (R187)
    pShape .unused (f.c.toNat % 16 != 0 || [1, 2, 10].contains f.pop || f.sub > 3 || popMinorRes f (f.sub % 2))
  | 0xAC => -- bset (R192)
    { d := .idx 4, a := .sOnly, res := f.minor != 0 }
  | 0xAD => -- bperm (R193)
    { d := .vOnly f.ty.regs, a := .src f.ty, c := .idx 4, res := resInt f tyBits 0 }
  | 0xAE => -- cfd (R199)
    { d := .vOnly 1, a := .src f.ty, c := .pD, res := resInt f tyBits 0 }
  | 0xAF => -- kadd (R200)
    { d := .vOnly 1, a := .src f.ty, b := .vOnly 1, res := resRnd f [.f32, .i32, .n32] (if f.ty = .f32 then 4 else 0) 0 }
  | 0xB0 => -- pfill (R190)
    { d := .sOnly, a := if f.pop = 0 then .sVal f.ty else .unused, c := .ctl,
      res := f.c.toNat % 32 != 0 || f.pop > 2 || f.rnd != 0 || f.sub != 0 ||
        f.ty = .b128 || (f.pop != 0 && !([Ty.b32, .n32, .n16, .n8].contains f.ty)) }
  | 0xC0 => -- ldl (R142)
    { d := .vD f.ty.regs, a := .sOnly, b := accessB f true, res := resAccess f tyLdl }
  | 0xC1 => -- stl (R142)
    { d := .vs f.ty.regs, a := .sOnly, b := accessB f true, res := resAccess f tyLdl }
  | 0xC2 => -- ldx (R227)
    { d := .vD f.ty.regs, a := .sOnly, b := accessB f true, res := resAccess f tyLdl }
  | 0xC3 => -- stx (R227)
    { d := .vs f.ty.regs, a := .sOnly, b := accessB f true, res := resAccess f tyLdl }
  | 0xC4 => -- atoms (R230)
    { d := .vOnly (aopTy f.osub).regs, a := .sOnly, b := .offOrZero true, c := .src (aopTy f.osub),
      res := resOrd f [0, 1, 2, 3, 4] 15 }
  | 0xC5 => -- fnc (R233)
    { res := resOrd f [1, 2, 3, 4] 0 }
  | 0xC6 => -- bini (R237)
    barShape .zeroIll (.sSrc .n32) f [0, 2]
  | 0xC7 => -- barv (R237)
    barShape .sOrZero .zeroIll f [0, 2, 3, 4]
  | 0xC8 => -- bexp (R237)
    barShape .zeroIll (.sSrc .i32) f [0, 2, 3]
  | 0xC9 => -- bdrop (R237)
    barShape .sOrZero .zeroIll f [0, 2, 3, 4]
  | 0xCA => -- btest (R237)
    barShape .sOnly .zeroIll f [0, 1]
  | 0xCB => -- wait (R240)
    { d := .sOnly, a := .sOnly, b := .ctl, c := .sSrc .n64,
      res := f.scope != 0 || f.ord != 0 || f.osub > 1,
      ill := if f.b.toNat < 353 || f.b.toNat > 356 then some 2
        else if f.a.toNat > 319 - (f.b.toNat - 353) then some 1 else none }
  | 0xD0 => -- gld (R245)
    { d := .sOnly, a := .vs 2, b := .off true, c := .ctl, res := f.c.toNat ≥ 4 || resSingle f [0, 1, 4], ill := slkIll f }
  | 0xD1 => -- gst (R245)
    { d := .sOnly, a := .vs 2, b := .off true, c := .ctl, res := f.c.toNat ≥ 4 || resSingle f [0, 2, 4], ill := slkIll f }
  | 0xD2 => -- gatom (R245)
    { d := .sOnly, a := .vs 2, b := .off true, c := .ctl,
      res := f.c.toNat ≥ 32 || (f.c.toNat ≥ 28) || resSingle f [0, 1, 2, 3, 4], ill := slkIll f }
  | 0xD3 => -- watch (R246)
    { d := .sOnly, a := .sOnly, b := .sSrc .b64, c := .sOnly, res := resSingle f [0, 1], ill := slkIll f }
  | 0xD4 => -- cpy (R289)
    { d := .sOnly, a := .sOnly, b := .sOnly, c := if cpyForm f = 4 then .sSrc .n64 else .ctl, res := resCpy f, ill := auxIll f }
  | 0xD5 => -- gth (R294)
    { d := .sOnly, a := .vOnly 1, b := .off true, c := .sOnly, res := bits f.esub 1 5 != 0, ill := auxIll f }
  | 0xD6 => -- sct (R294)
    { d := .sOnly, a := .vOnly 1, b := .off true, c := .sOnly, res := bits f.esub 5 1 != 0 || bits f.esub 1 4 > 13, ill := auxIll f }
  | 0xD7 => -- probe (R296)
    { d := .sOnly, a := .vOnly 1, c := .sOnly, res := bits f.esub 2 4 != 0, ill := auxIll f }
  | 0xD8 => -- chsend (R297)
    { d := .sOnly, a := .sSrc .n64, b := .sOnly, c := .sSrc .n64, res := f.esub != 0, ill := slkIll f }
  | 0xD9 => -- chrecv (R298)
    { d := .sOnly, a := .sSrc .n64, res := resPoll f }
  | 0xDA => -- chrel (R299)
    { d := .sOnly, a := .sSrc .n64, res := resPoll f }
  | 0xDB => -- chpoll (R300)
    { d := .sOnly, a := .sSrc .n64, res := resPoll f }
  | 0xDC => -- eqry (R301)
    { d := .sOnly, a := .sOnly, b := .ctl, res := resPoll f, ill := if f.b = 352 || f.b = 353 then none else some 2 }
  | 0xDD => -- ecncl (R302)
    { d := .sOnly, a := .sOnly, res := resPoll f }
  | 0xE0 => -- mma (R318)
    { d := .sOnly, a := .sOnly, b := .word64, res := f.mmode = 3 || (f.mreg != 0 && f.mmode = 0) || f.xsub > 1 }
  | 0xE1 => -- mmasp (R320)
    { d := .sOnly, a := .sOnly, b := .word64, c := .sOnly, res := f.mmode = 3 || (f.mreg != 0 && f.mmode = 0) || f.xsub = 3 }
  | 0xE2 => -- scout (R323)
    { d := .sOnly, a := .sOnly, b := .word64, c := .fval,
      res := f.pln < 1 || f.pln > 3 || f.mmode != 0 || f.mreg != 0 || f.xsub != 0 }
  | 0xE3 => -- hzn (R325)
    { d := .sOnly, a := .word64, b := .fval, c := .idx 8, res := f.minor != 0, ill := if f.d.toNat ≥ 319 then some 0 else none }
  | 0xE4 => -- drain (R328)
    { d := .sOnly, a := .sOnly, b := .word64, c := .fval,
      res := f.rnd > 4 || f.sub ≥ 4 ||
        !(if f.sub % 2 = 0 then [Ty.f32, .f16, .bf16, .e4m3].contains f.ty else f.ty = .b32) }
  | 0xE5 => -- azero (R329)
    { d := .sOnly, a := .ctl, res := f.minor != 0, ill := if f.a.toNat < 352 || f.a.toNat > 367 then some 1 else none }
  | 0xE6 => -- qnt (R330)
    { d := .sOnly, a := .sOnly, b := .sOnly, res := resRnd f [.f32] 4 0 }
  | 0xE7 => -- trq (R331)
    { d := .sOnly, a := .sOnly, b := .sOnly, res := resRnd f [.b32] 4 0 }
  | 0xE8 => -- bput (R333)
    { d := .sOnly, a := .sOnly, b := .word64, res := resInt f [.b32] 2 }
  | 0xE9 => -- mop (R334)
    { d := .sOnly, a := .idx 8, b := if f.sub = 5 then .sSrc .n64 else .idx 8,
      c := if f.sub = 5 then .sSrc .n64 else if f.sub = 4 || f.sub = 6 then .unused else .idx 8, res := resInt f [.b32] 6 }
  | 0xEA => -- mrd (R336)
    { d := .sOnly, a := .sOnly, b := .word64, res := resInt f [.b32] 3 }
  | 0xEB => -- mwr (R336)
    { d := .sOnly, a := .sOnly, b := .word64, res := resInt f [.b32] 3 }
  | _ => {}

/-- What D accepts in class J (R92, R197), whether the entry takes an offset, and the highest SUB. -/
def jForm (op : Nat) : Pos × Bool × Nat :=
  match op with
  | 0x02 | 0x07 => (.unused, true, 0)
  | 0x03 | 0x04 | 0x0A => (.sOnly, true, 0)
  | 0x05 => (.pS, true, 1)
  | _ => (.sOnly, false, 0)

/-- The opcodes that may follow `rpt` (R64). -/
def repeatable (op : Nat) : Bool :=
  (0x20 ≤ op && op ≤ 0x3B) || (0x40 ≤ op && op ≤ 0x5C) || (0x70 ≤ op && op ≤ 0x86) || (0x90 ≤ op && op ≤ 0x95) ||
  op = 0xA0 || op = 0xAD || (0xC0 ≤ op && op ≤ 0xC4)

/-! ## Static decode faults (R40, R41) -/

/-- The code of a cause (R364). -/
def Cause.code : Cause → Nat
  | .illegalOpcode => 0x01 | .illegalOperand => 0x02 | .reservedField => 0x03 | .literalMisuse => 0x04
  | .stallShort => 0x05 | .scratchBounds => 0x06 | .misaligned => 0x07 | .rangeBusy => 0x08 | .promiseMissed => 0x09
  | .foldMismatch => 0x0A | .descInvalid => 0x0B | .divstackFull => 0x0C | .hang => 0x0D | .engineFault => 0x0E
  | .itemFault => 0x0F | .slackExhausted => 0x10 | .channelInvalid => 0x11 | .barrierInvalid => 0x12
  | .accInvalid => 0x13 | .privilege => 0x14 | .software => 0x15 | .breakpoint => 0x16 | .launchFull => 0x17
  | .poison => 0x18 | .repeatMisuse => 0x19

/-- Rank of a decode fault (R40, R41). -/
def decodeRank : Cause → Nat
  | .misaligned => 0
  | .illegalOpcode => 1
  | .reservedField => 2
  | .illegalOperand => 3
  | .literalMisuse => 4
  | .repeatMisuse => 5
  | _ => 6

/-- A fault with its detail word. -/
structure Flt where
  cause : Cause
  detail : Nat := 0
  condw : Nat := 0
  deriving DecidableEq, Repr

/-- The first of the faults in the order of R40; among equals, the first listed. -/
def firstFault : List Flt → Option Flt
  | [] => none
  | x :: xs =>
    match firstFault xs with
    | none => some x
    | some y => if decodeRank x.cause ≤ decodeRank y.cause then some x else some y

/-- N = 1 with G = 0 is reserved (R45). -/
def hdrFaults (h : Hdr) : List Flt := if h.n && h.g = 0 then [⟨.reservedField, 0, 0⟩] else []

/-- The faults of one field (R46, R47); i is its number in the detail word. -/
def posFaults (q : Pos) (code i : Nat) : List Flt :=
  if q = .unused then if code = 0 then [] else [⟨.reservedField, 0, 0⟩]
  else if q.accepts code then [] else [⟨.illegalOperand, i, 0⟩]

/-- The codes of the operand fields, in the order D, A, B, C (R49). -/
def operandCodes (sh : Shape) (f : Fields) : List Nat :=
  (if sh.d.isOperand then [f.d.toNat] else []) ++ (if sh.a.isOperand then [f.a.toNat] else []) ++
  (if sh.b.isOperand then [f.b.toNat] else []) ++ (if sh.c.isOperand then [f.c.toNat] else [])

/-- The literal codes among them. -/
def litCodes (sh : Shape) (f : Fields) : List Nat := (operandCodes sh f).filter fun c => c = 384 || c = 385

/-- The faults of a word of classes V, K, M, P, E, X that the word alone shows. -/
def fieldFaults (sh : Shape) (f : Fields) : List Flt :=
  hdrFaults f.h ++ (if sh.res then [⟨.reservedField, 0, 0⟩] else []) ++
  posFaults sh.d f.d.toNat 0 ++ posFaults sh.a f.a.toNat 1 ++ posFaults sh.b f.b.toNat 2 ++ posFaults sh.c f.c.toNat 3 ++
  (match sh.ill with | some i => [⟨.illegalOperand, i, 0⟩] | none => []) ++
  (if (litCodes sh f).length > 1 then [⟨.literalMisuse, 0, 0⟩] else [])

/-- The faults of a word of class J (R55). In `bra` and `call` D is an unused field, so 384 and 385 there break R46 ahead of R92's
LITERAL_MISUSE (R41, log 43). -/
def jFaults (op : Nat) (f : JFields) : List Flt :=
  let (q, offs, m) := jForm op
  hdrFaults f.h ++
  (if (!offs && f.off != 0) || (f.join.isSome && op != 0x05) || f.sub.toNat > m then [⟨.reservedField, 0, 0⟩] else []) ++
  (if q != .unused && (f.d = 384 || f.d = 385) then [⟨.literalMisuse, 0, 0⟩] else posFaults q f.d.toNat 0)

/-- D and A of class S (R61, R101, R145). -/
def sForm (op : Nat) : Pos × Pos :=
  match op with
  | 0x11 => (.sOnly, .unused)
  | 0x12 => (.unused, .sSrc .n64)
  | _ => (.idx 8, .sSrc .n64)

/-- The literal codes in the operand fields of a class-S word, in the order D, A (R43, R49). -/
def sLitCodes (op : Nat) (f : SFields) : List Nat :=
  ((if (sForm op).1.isOperand then [f.d.toNat] else []) ++ (if (sForm op).2.isOperand then [f.a.toNat] else [])).filter
    fun c => c = 384 || c = 385

/-- The faults of a word of class S (R61, R101). -/
def sFaults (op : Nat) (f : SFields) : List Flt :=
  let (qd, qa) := sForm op
  let n := f.sreg.toNat
  hdrFaults f.h ++
  (if (op = 0xCC && n != 0) || (op = 0x11 && !(sregNames.contains n)) || (op = 0x12 && !(sregWritable.contains n))
   then [⟨.reservedField, 0, 0⟩] else []) ++
  posFaults qd f.d.toNat 0 ++ posFaults qa f.a.toNat 1

/-- The faults of `rpt` (R62). -/
def qFaults (f : QFields) : List Flt := if f.h.n || f.h.g != 0 then [⟨.reservedField, 0, 0⟩] else []

/-- The literal that R49 says follows a word of these fields is the one the fields hold. -/
def litFits (sh : Shape) (f : Fields) : Bool :=
  match (litCodes sh f).head?, f.lit with
  | none, .none => true
  | some 384, .w32 _ => true
  | some 385, .w64 _ => true
  | _, _ => false

/-- As `litFits`, for class S. -/
def sLitFits (op : Nat) (f : SFields) : Bool :=
  match (sLitCodes op f).head?, f.lit with
  | none, .none => true
  | some 384, .w32 _ => true
  | some 385, .w64 _ => true
  | _, _ => false

/-! ## The opcode of a constructor, and the word view of an instruction (R64) -/

/-- An instruction seen as its opcode and its class's fields. -/
inductive View
  | cf (op : Nat) (f : Fields)
  | cj (op : Nat) (f : JFields)
  | cs (op : Nat) (f : SFields)
  | cq (f : QFields)
  deriving DecidableEq, Repr

/-- The opcode and fields of an instruction; none for the steps of other agents, which have no word (R64). -/
def Instr.view : Instr → Option View
  | .nop f => some (.cf 0x01 f)
  | .bra f => some (.cj 0x02 f)
  | .brz f => some (.cj 0x03 f)
  | .brnz f => some (.cj 0x04 f)
  | .brv f => some (.cj 0x05 f)
  | .jmp f => some (.cj 0x06 f)
  | .call f => some (.cj 0x07 f)
  | .callr f => some (.cj 0x08 f)
  | .ret f => some (.cj 0x09 f)
  | .loop f => some (.cj 0x0A f)
  | .rpt f => some (.cq f)
  | .exit f => some (.cf 0x0C f)
  | .yield f => some (.cf 0x0D f)
  | .trap f => some (.cf 0x0E f)
  | .tret f => some (.cf 0x0F f)
  | .brk f => some (.cf 0x10 f)
  | .sysrd f => some (.cs 0x11 f)
  | .syswr f => some (.cs 0x12 f)
  | .launch f => some (.cf 0x13 f)
  | .elect f => some (.cf 0x14 f)
  | .sadd f => some (.cf 0x20 f)
  | .ssub f => some (.cf 0x21 f)
  | .smul f => some (.cf 0x22 f)
  | .smulh f => some (.cf 0x23 f)
  | .sdiv f => some (.cf 0x24 f)
  | .srem f => some (.cf 0x25 f)
  | .sand f => some (.cf 0x26 f)
  | .sor f => some (.cf 0x27 f)
  | .sxor f => some (.cf 0x28 f)
  | .sshl f => some (.cf 0x29 f)
  | .sshr f => some (.cf 0x2A f)
  | .ssra f => some (.cf 0x2B f)
  | .smin f => some (.cf 0x2C f)
  | .smax f => some (.cf 0x2D f)
  | .scmp f => some (.cf 0x2E f)
  | .ssel f => some (.cf 0x2F f)
  | .smov f => some (.cf 0x30 f)
  | .sbfe f => some (.cf 0x31 f)
  | .sbfi f => some (.cf 0x32 f)
  | .spopc f => some (.cf 0x33 f)
  | .sclz f => some (.cf 0x34 f)
  | .sctz f => some (.cf 0x35 f)
  | .sld f => some (.cf 0x36 f)
  | .sst f => some (.cf 0x37 f)
  | .rdlane f => some (.cf 0x38 f)
  | .wrlane f => some (.cf 0x39 f)
  | .smad f => some (.cf 0x3A f)
  | .slea f => some (.cf 0x3B f)
  | .add f => some (.cf 0x40 f)
  | .sub f => some (.cf 0x41 f)
  | .mul f => some (.cf 0x42 f)
  | .mulh f => some (.cf 0x43 f)
  | .mad f => some (.cf 0x44 f)
  | .min f => some (.cf 0x45 f)
  | .max f => some (.cf 0x46 f)
  | .abs f => some (.cf 0x47 f)
  | .neg f => some (.cf 0x48 f)
  | .and f => some (.cf 0x49 f)
  | .or f => some (.cf 0x4A f)
  | .xor f => some (.cf 0x4B f)
  | .not f => some (.cf 0x4C f)
  | .shl f => some (.cf 0x4D f)
  | .shr f => some (.cf 0x4E f)
  | .sra f => some (.cf 0x4F f)
  | .rotl f => some (.cf 0x50 f)
  | .bfe f => some (.cf 0x51 f)
  | .bfi f => some (.cf 0x52 f)
  | .popc f => some (.cf 0x53 f)
  | .clz f => some (.cf 0x54 f)
  | .ctz f => some (.cf 0x55 f)
  | .brev f => some (.cf 0x56 f)
  | .sel f => some (.cf 0x57 f)
  | .icmp f => some (.cf 0x58 f)
  | .mov f => some (.cf 0x59 f)
  | .dot4 f => some (.cf 0x5A f)
  | .lea f => some (.cf 0x5B f)
  | .prmt f => some (.cf 0x5C f)
  | .fadd f => some (.cf 0x70 f)
  | .fsub f => some (.cf 0x71 f)
  | .fmul f => some (.cf 0x72 f)
  | .fma f => some (.cf 0x73 f)
  | .fmin f => some (.cf 0x74 f)
  | .fmax f => some (.cf 0x75 f)
  | .fabs f => some (.cf 0x76 f)
  | .fneg f => some (.cf 0x77 f)
  | .fcmp f => some (.cf 0x78 f)
  | .fclass f => some (.cf 0x79 f)
  | .rcp f => some (.cf 0x7A f)
  | .rsqrt f => some (.cf 0x7B f)
  | .sqrt f => some (.cf 0x7C f)
  | .ex2 f => some (.cf 0x7D f)
  | .lg2 f => some (.cf 0x7E f)
  | .sinpi f => some (.cf 0x7F f)
  | .cospi f => some (.cf 0x80 f)
  | .frnd f => some (.cf 0x81 f)
  | .frac f => some (.cf 0x82 f)
  | .ldexp f => some (.cf 0x83 f)
  | .cvt f => some (.cf 0x84 f)
  | .cvtef f => some (.cf 0x85 f)
  | .fdot2 f => some (.cf 0x86 f)
  | .pand f => some (.cf 0x90 f)
  | .por f => some (.cf 0x91 f)
  | .pxor f => some (.cf 0x92 f)
  | .pnot f => some (.cf 0x93 f)
  | .pset f => some (.cf 0x94 f)
  | .pget f => some (.cf 0x95 f)
  | .vote f => some (.cf 0x96 f)
  | .mvn f => some (.cf 0xA0 f)
  | .pdesc f => some (.cf 0xA1 f)
  | .pld f => some (.cf 0xA2 f)
  | .pst f => some (.cf 0xA3 f)
  | .pew f => some (.cf 0xA4 f)
  | .pshift f => some (.cf 0xA5 f)
  | .prot f => some (.cf 0xA6 f)
  | .pspread f => some (.cf 0xA7 f)
  | .pfold f => some (.cf 0xA8 f)
  | .prefold f => some (.cf 0xA9 f)
  | .ptrans f => some (.cf 0xAA f)
  | .pscan f => some (.cf 0xAB f)
  | .bset f => some (.cf 0xAC f)
  | .bperm f => some (.cf 0xAD f)
  | .cfd f => some (.cf 0xAE f)
  | .kadd f => some (.cf 0xAF f)
  | .pfill f => some (.cf 0xB0 f)
  | .ldl f => some (.cf 0xC0 f)
  | .stl f => some (.cf 0xC1 f)
  | .ldx f => some (.cf 0xC2 f)
  | .stx f => some (.cf 0xC3 f)
  | .atoms f => some (.cf 0xC4 f)
  | .fnc f => some (.cf 0xC5 f)
  | .bini f => some (.cf 0xC6 f)
  | .barv f => some (.cf 0xC7 f)
  | .bexp f => some (.cf 0xC8 f)
  | .bdrop f => some (.cf 0xC9 f)
  | .btest f => some (.cf 0xCA f)
  | .wait f => some (.cf 0xCB f)
  | .kset f => some (.cs 0xCC f)
  | .gld f => some (.cf 0xD0 f)
  | .gst f => some (.cf 0xD1 f)
  | .gatom f => some (.cf 0xD2 f)
  | .watch f => some (.cf 0xD3 f)
  | .cpy f => some (.cf 0xD4 f)
  | .gth f => some (.cf 0xD5 f)
  | .sct f => some (.cf 0xD6 f)
  | .probe f => some (.cf 0xD7 f)
  | .chsend f => some (.cf 0xD8 f)
  | .chrecv f => some (.cf 0xD9 f)
  | .chrel f => some (.cf 0xDA f)
  | .chpoll f => some (.cf 0xDB f)
  | .eqry f => some (.cf 0xDC f)
  | .ecncl f => some (.cf 0xDD f)
  | .mma f => some (.cf 0xE0 f)
  | .mmasp f => some (.cf 0xE1 f)
  | .scout f => some (.cf 0xE2 f)
  | .hzn f => some (.cf 0xE3 f)
  | .drain f => some (.cf 0xE4 f)
  | .azero f => some (.cf 0xE5 f)
  | .qnt f => some (.cf 0xE6 f)
  | .trq f => some (.cf 0xE7 f)
  | .bput f => some (.cf 0xE8 f)
  | .mop f => some (.cf 0xE9 f)
  | .mrd f => some (.cf 0xEA f)
  | .mwr f => some (.cf 0xEB f)
  | .trapEntry _ _ _ => none
  | .cohortFault _ => none
  | .gangEnd => none
  | .slotPark _ => none
  | .slotExchange => none
  | .slotMerge => none
  | .stackPop _ => none
  | .waitSatisfied _ => none
  | .waitTimeout _ => none
  | .hang _ => none
  | .promiseMissed _ => none
  | .fenceRelease _ => none
  | .channelSlotClaim _ => none
  | .channelMessageTake _ => none
  | .channelSlotFree _ => none
  | .engineIssueHoldEnd _ => none
  | .probePass _ => none
  | .lockWaitEnd _ => none
  | .itemPerform _ _ => none
  | .operationCompletion _ => none
  | .watchComplete _ => none
  | .channelLanding _ => none
  | .matrixOpStart _ => none
  | .matrixOpComplete _ => none
  | .routerGrant _ _ => none
  | .slackTick => none
  | .routerPowerOff _ => none
  | .routerWake _ => none
  | .sliceServe _ => none
  | .sliceApply _ => none
  | .cxlSend _ => none
  | .cxlResponseTimeout _ => none
  | .fabricEgressGrant _ => none
  | .fabricPortTimeout _ => none
  | .fabricLinkDown _ => none
  | .fabricLinkReturn _ => none
  | .flitRetransmit _ => none
  | .portSwitchRelease _ => none
  | .submission _ _ _ _ => none
  | .packetStart _ _ => none
  | .packetComplete _ _ => none
  | .launchPacket _ _ => none
  | .copyPacket _ _ => none
  | .signalPacket _ _ => none
  | .installPacket _ _ => none
  | .removeHandle _ _ => none
  | .queryQuote _ _ => none
  | .queryIdentity _ _ => none
  | .queryRevision _ _ => none
  | .dispatchConsider _ => none
  | .gangToPending => none
  | .pendingEntersActive => none
  | .activeRotationOut => none
  | .childStart _ => none
  | .preemptStop _ => none
  | .quiesce _ => none
  | .saveReport _ => none
  | .restore _ => none
  | .preempt _ _ _ _ => none
  | .resume _ _ _ _ => none
  | .endLaunch _ _ _ => none
  | .inval _ _ _ _ => none
  | .revoke _ _ => none
  | .allow _ _ => none
  | .qpri _ _ _ => none
  | .halt _ => none
  | .swap _ _ => none
  | .commandDone _ => none
  | .invalidationComplete _ => none
  | .hostMemoryRequest _ => none
  | .controlAccessRefused _ _ _ _ => none
  | .interruptRemapWrite _ _ _ _ => none
  | .registerWrite _ _ _ => none
  | .portenWrite _ _ => none
  | .extend _ _ => none
  | .powerUp => none
  | .bootImageWrite _ _ => none
  | .nodeWordWrite _ => none
  | .bootStatusWrite _ _ => none
  | .imageVerified => none
  | .equinoxClockChange _ => none
  | .thermalThrottle _ _ => none
  | .errorRecord _ _ _ _ _ => none
  | .partitionSetup _ _ _ _ => none

/-- The instruction of a view; none when the opcode is unassigned or of another class (R64, R65). -/
def View.instr : View → Option Instr
  | .cf 0x01 f => some (.nop f)
  | .cj 0x02 f => some (.bra f)
  | .cj 0x03 f => some (.brz f)
  | .cj 0x04 f => some (.brnz f)
  | .cj 0x05 f => some (.brv f)
  | .cj 0x06 f => some (.jmp f)
  | .cj 0x07 f => some (.call f)
  | .cj 0x08 f => some (.callr f)
  | .cj 0x09 f => some (.ret f)
  | .cj 0x0A f => some (.loop f)
  | .cq f => some (.rpt f)
  | .cf 0x0C f => some (.exit f)
  | .cf 0x0D f => some (.yield f)
  | .cf 0x0E f => some (.trap f)
  | .cf 0x0F f => some (.tret f)
  | .cf 0x10 f => some (.brk f)
  | .cs 0x11 f => some (.sysrd f)
  | .cs 0x12 f => some (.syswr f)
  | .cf 0x13 f => some (.launch f)
  | .cf 0x14 f => some (.elect f)
  | .cf 0x20 f => some (.sadd f)
  | .cf 0x21 f => some (.ssub f)
  | .cf 0x22 f => some (.smul f)
  | .cf 0x23 f => some (.smulh f)
  | .cf 0x24 f => some (.sdiv f)
  | .cf 0x25 f => some (.srem f)
  | .cf 0x26 f => some (.sand f)
  | .cf 0x27 f => some (.sor f)
  | .cf 0x28 f => some (.sxor f)
  | .cf 0x29 f => some (.sshl f)
  | .cf 0x2A f => some (.sshr f)
  | .cf 0x2B f => some (.ssra f)
  | .cf 0x2C f => some (.smin f)
  | .cf 0x2D f => some (.smax f)
  | .cf 0x2E f => some (.scmp f)
  | .cf 0x2F f => some (.ssel f)
  | .cf 0x30 f => some (.smov f)
  | .cf 0x31 f => some (.sbfe f)
  | .cf 0x32 f => some (.sbfi f)
  | .cf 0x33 f => some (.spopc f)
  | .cf 0x34 f => some (.sclz f)
  | .cf 0x35 f => some (.sctz f)
  | .cf 0x36 f => some (.sld f)
  | .cf 0x37 f => some (.sst f)
  | .cf 0x38 f => some (.rdlane f)
  | .cf 0x39 f => some (.wrlane f)
  | .cf 0x3A f => some (.smad f)
  | .cf 0x3B f => some (.slea f)
  | .cf 0x40 f => some (.add f)
  | .cf 0x41 f => some (.sub f)
  | .cf 0x42 f => some (.mul f)
  | .cf 0x43 f => some (.mulh f)
  | .cf 0x44 f => some (.mad f)
  | .cf 0x45 f => some (.min f)
  | .cf 0x46 f => some (.max f)
  | .cf 0x47 f => some (.abs f)
  | .cf 0x48 f => some (.neg f)
  | .cf 0x49 f => some (.and f)
  | .cf 0x4A f => some (.or f)
  | .cf 0x4B f => some (.xor f)
  | .cf 0x4C f => some (.not f)
  | .cf 0x4D f => some (.shl f)
  | .cf 0x4E f => some (.shr f)
  | .cf 0x4F f => some (.sra f)
  | .cf 0x50 f => some (.rotl f)
  | .cf 0x51 f => some (.bfe f)
  | .cf 0x52 f => some (.bfi f)
  | .cf 0x53 f => some (.popc f)
  | .cf 0x54 f => some (.clz f)
  | .cf 0x55 f => some (.ctz f)
  | .cf 0x56 f => some (.brev f)
  | .cf 0x57 f => some (.sel f)
  | .cf 0x58 f => some (.icmp f)
  | .cf 0x59 f => some (.mov f)
  | .cf 0x5A f => some (.dot4 f)
  | .cf 0x5B f => some (.lea f)
  | .cf 0x5C f => some (.prmt f)
  | .cf 0x70 f => some (.fadd f)
  | .cf 0x71 f => some (.fsub f)
  | .cf 0x72 f => some (.fmul f)
  | .cf 0x73 f => some (.fma f)
  | .cf 0x74 f => some (.fmin f)
  | .cf 0x75 f => some (.fmax f)
  | .cf 0x76 f => some (.fabs f)
  | .cf 0x77 f => some (.fneg f)
  | .cf 0x78 f => some (.fcmp f)
  | .cf 0x79 f => some (.fclass f)
  | .cf 0x7A f => some (.rcp f)
  | .cf 0x7B f => some (.rsqrt f)
  | .cf 0x7C f => some (.sqrt f)
  | .cf 0x7D f => some (.ex2 f)
  | .cf 0x7E f => some (.lg2 f)
  | .cf 0x7F f => some (.sinpi f)
  | .cf 0x80 f => some (.cospi f)
  | .cf 0x81 f => some (.frnd f)
  | .cf 0x82 f => some (.frac f)
  | .cf 0x83 f => some (.ldexp f)
  | .cf 0x84 f => some (.cvt f)
  | .cf 0x85 f => some (.cvtef f)
  | .cf 0x86 f => some (.fdot2 f)
  | .cf 0x90 f => some (.pand f)
  | .cf 0x91 f => some (.por f)
  | .cf 0x92 f => some (.pxor f)
  | .cf 0x93 f => some (.pnot f)
  | .cf 0x94 f => some (.pset f)
  | .cf 0x95 f => some (.pget f)
  | .cf 0x96 f => some (.vote f)
  | .cf 0xA0 f => some (.mvn f)
  | .cf 0xA1 f => some (.pdesc f)
  | .cf 0xA2 f => some (.pld f)
  | .cf 0xA3 f => some (.pst f)
  | .cf 0xA4 f => some (.pew f)
  | .cf 0xA5 f => some (.pshift f)
  | .cf 0xA6 f => some (.prot f)
  | .cf 0xA7 f => some (.pspread f)
  | .cf 0xA8 f => some (.pfold f)
  | .cf 0xA9 f => some (.prefold f)
  | .cf 0xAA f => some (.ptrans f)
  | .cf 0xAB f => some (.pscan f)
  | .cf 0xAC f => some (.bset f)
  | .cf 0xAD f => some (.bperm f)
  | .cf 0xAE f => some (.cfd f)
  | .cf 0xAF f => some (.kadd f)
  | .cf 0xB0 f => some (.pfill f)
  | .cf 0xC0 f => some (.ldl f)
  | .cf 0xC1 f => some (.stl f)
  | .cf 0xC2 f => some (.ldx f)
  | .cf 0xC3 f => some (.stx f)
  | .cf 0xC4 f => some (.atoms f)
  | .cf 0xC5 f => some (.fnc f)
  | .cf 0xC6 f => some (.bini f)
  | .cf 0xC7 f => some (.barv f)
  | .cf 0xC8 f => some (.bexp f)
  | .cf 0xC9 f => some (.bdrop f)
  | .cf 0xCA f => some (.btest f)
  | .cf 0xCB f => some (.wait f)
  | .cs 0xCC f => some (.kset f)
  | .cf 0xD0 f => some (.gld f)
  | .cf 0xD1 f => some (.gst f)
  | .cf 0xD2 f => some (.gatom f)
  | .cf 0xD3 f => some (.watch f)
  | .cf 0xD4 f => some (.cpy f)
  | .cf 0xD5 f => some (.gth f)
  | .cf 0xD6 f => some (.sct f)
  | .cf 0xD7 f => some (.probe f)
  | .cf 0xD8 f => some (.chsend f)
  | .cf 0xD9 f => some (.chrecv f)
  | .cf 0xDA f => some (.chrel f)
  | .cf 0xDB f => some (.chpoll f)
  | .cf 0xDC f => some (.eqry f)
  | .cf 0xDD f => some (.ecncl f)
  | .cf 0xE0 f => some (.mma f)
  | .cf 0xE1 f => some (.mmasp f)
  | .cf 0xE2 f => some (.scout f)
  | .cf 0xE3 f => some (.hzn f)
  | .cf 0xE4 f => some (.drain f)
  | .cf 0xE5 f => some (.azero f)
  | .cf 0xE6 f => some (.qnt f)
  | .cf 0xE7 f => some (.trq f)
  | .cf 0xE8 f => some (.bput f)
  | .cf 0xE9 f => some (.mop f)
  | .cf 0xEA f => some (.mrd f)
  | .cf 0xEB f => some (.mwr f)
  | _ => none

/-- The shape of a view. -/
def View.shape : View → Shape
  | .cf op f => opShape op f
  | .cj op _ => jShape (jForm op).1
  | .cs op _ => { d := (sForm op).1, a := (sForm op).2, priv := false }
  | .cq _ => {}

/-- The decode faults that the word alone shows (R40). -/
def View.faults : View → List Flt
  | .cf op f => fieldFaults (opShape op f) f
  | .cj op f => jFaults op f
  | .cs op f => sFaults op f
  | .cq f => qFaults f

/-- The head of a view. -/
def View.hdr : View → Hdr
  | .cf _ f => f.h
  | .cj _ f => f.h
  | .cs _ f => f.h
  | .cq f => f.h

/-- The opcode of a view. -/
def View.op : View → Nat
  | .cf op _ => op
  | .cj op _ => op
  | .cs op _ => op
  | .cq _ => 0x0B

/-- Length in bytes of the literal (R43). -/
def Lit.bytes : Lit → Nat
  | .none => 0
  | .w32 _ => 4
  | .w64 _ => 8

/-- Length in bytes (R43, R55). -/
def View.length : View → Nat
  | .cf _ f => 8 + Lit.bytes f.lit
  | .cj _ f => if f.join.isSome then 12 else 8
  | .cs _ f => 8 + Lit.bytes f.lit
  | .cq _ => 8

end Sys2Proof
end

