-- ==== Sys2Proof/WellFormed.lean ====
section
/-! DEFINITION. What makes an instruction well-formed as a word: no field breaks its entry (spec/03 R40 to R63), and the
literal it holds is the one its operand fields call for (R43, R49). -/
namespace Sys2Proof

/-- The literal of a view is the one R43 and R49 make follow the word. -/
def View.litOk : View → Bool
  | .cf op f => litFits (opShape op f) f
  | .cj _ _ => true
  | .cs op f => sLitFits op f
  | .cq _ => true

/-- The first decode fault that the instruction itself shows, by the order of R41; none for the steps of other agents. -/
def Instr.fault (i : Instr) : Option Flt :=
  match i.view with
  | none => none
  | some v => firstFault v.faults

/-- A well-formed instruction: it has a word, the word has no decode fault of its own, and its literal fits. -/
def Instr.wellFormed (i : Instr) : Bool :=
  match i.view with
  | none => false
  | some v => (firstFault v.faults).isNone && v.litOk

end Sys2Proof
end

