-- ==== Sys2Proof/Decode.lean ====
section
/-! DEFINITION. The decoder and the encoder of native text (spec/03 R43 to R65). Both are written from the layouts of the
format classes; the decoder is total and names the cause for which it refuses a word (R40). -/
namespace Sys2Proof

/-- The base word of two units, low half first (R43). -/
def baseWord (lo hi : W32) : W64 := hi ++ lo

/-- OP (R45). -/
def wordOp (w : W64) : Nat := (w.extractLsb' 56 8).toNat

/-- N, G, STALL and REGION (R45). -/
def wordHdr (w : W64) : Hdr :=
  { n := w.getLsbD 55, g := w.extractLsb' 51 4, stall := w.extractLsb' 47 4, region := w.getLsbD 46 }

/-- D, A, B, C and MINOR (R45), with no literal yet. -/
def wordFields (w : W64) : Fields :=
  { h := wordHdr w, d := w.extractLsb' 37 9, a := w.extractLsb' 28 9, b := w.extractLsb' 19 9, c := w.extractLsb' 10 9,
    minor := w.extractLsb' 0 10, lit := .none }

/-- The fields of class J (R55), with no join yet. -/
def wordJ (w : W64) : JFields :=
  { h := wordHdr w, d := w.extractLsb' 37 9, off := w.extractLsb' 10 27, join := none, sub := w.extractLsb' 0 3 }

/-- The fields of class S (R61), with no literal yet. -/
def wordS (w : W64) : SFields :=
  { h := wordHdr w, d := w.extractLsb' 37 9, a := w.extractLsb' 28 9, sreg := w.extractLsb' 16 12, lit := .none }

/-- The fields of class Q (R62). -/
def wordQ (w : W64) : QFields :=
  { h := wordHdr w, nrep := w.extractLsb' 40 6, mask := w.extractLsb' 36 4, strd := w.extractLsb' 34 2 }

/-- The opcodes of class J (R64). -/
def isJ (op : Nat) : Bool := 0x02 ≤ op && op ≤ 0x0A
/-- The opcodes of class S (R64). -/
def isS (op : Nat) : Bool := op = 0x11 || op = 0x12 || op = 0xCC

/-- The literal a code calls for, read from the units after the base word; none when the text ends first (R43, R44, R49). -/
def readLit (code : Option Nat) (rest : List W32) : Option Lit :=
  match code, rest with
  | some 384, l :: _ => some (.w32 l)
  | some 385, l :: h :: _ => some (.w64 (h ++ l))
  | some 384, _ => none
  | some 385, _ => none
  | _, _ => some .none

/-- The view of the instruction that begins with base word w; none when its opcode is unassigned or its literal would pass
the end of the text (R44, R65). A unit follows every word of class J with JOIN 1, whatever its opcode (R55, log 43). -/
def wordView (w : W64) (rest : List W32) : Option View :=
  let op := wordOp w
  if isJ op then
    if w.getLsbD 9 then
      match rest with
      | j :: _ => some (.cj op { wordJ w with join := some j })
      | [] => none
    else some (.cj op (wordJ w))
  else if isS op then
    let f := wordS w
    (readLit (sLitCodes op f).head? rest).map fun l => .cs op { f with lit := l }
  else if op = 0x0B then some (.cq (wordQ w))
  else
    let f := wordFields w
    (readLit (litCodes (opShape op f) f).head? rest).map fun l => .cf op { f with lit := l }

/-- The reserved bits of the classes that the fields do not hold (R55, R61, R62). -/
def wordReserved (w : W64) : Bool :=
  let op := wordOp w
  if isJ op then w.extractLsb' 3 6 != 0
  else if isS op then w.extractLsb' 0 16 != 0
  else if op = 0x0B then w.extractLsb' 0 34 != 0
  else false

/-- The decoder: the instruction that stands at the head of the units, or the fault it raises (R40, R41, R44). -/
def decode (units : List W32) : Except Flt Instr :=
  match units with
  | lo :: hi :: rest =>
    let w := baseWord lo hi
    match wordView w rest with
    | none => .error ⟨.illegalOpcode, 0, 0⟩
    | some v =>
      match v.instr with
      | none => .error ⟨.illegalOpcode, 0, 0⟩
      | some i =>
        if wordReserved w then .error ⟨.reservedField, 0, 0⟩
        else match firstFault v.faults with
          | some e => .error e
          | none => .ok i
  | _ => .error ⟨.illegalOpcode, 0, 0⟩

/-- Length in bytes of whatever stands at the head of the units (R43, R49, R65): what `tret.next` steps over (R99). It depends on the base word
alone, also where the literal would pass the end of the text. -/
def unitLength (units : List W32) : Nat :=
  match units with
  | lo :: hi :: rest =>
    match wordView (baseWord lo hi) (rest ++ [0, 0]) with
    | none => 8
    | some v => if v.instr.isSome then v.length else 8
  | _ => 8

/-! ## The encoder -/

/-- The bits above the class fields (R45). -/
def encHead (op : Nat) (h : Hdr) : BitVec 18 :=
  BitVec.ofNat 8 op ++ BitVec.ofBool h.n ++ h.g ++ h.stall ++ BitVec.ofBool h.region

/-- Classes V, K, M, P, E and X (R45). -/
def encFields (op : Nat) (f : Fields) : W64 := encHead op f.h ++ f.d ++ f.a ++ f.b ++ f.c ++ f.minor

/-- Class J (R55). -/
def encJ (op : Nat) (f : JFields) : W64 :=
  encHead op f.h ++ f.d ++ f.off ++ BitVec.ofBool f.join.isSome ++ (0 : BitVec 6) ++ f.sub

/-- Class S (R61). -/
def encS (op : Nat) (f : SFields) : W64 := encHead op f.h ++ f.d ++ f.a ++ f.sreg ++ (0 : BitVec 16)

/-- Class Q (R62). -/
def encQ (f : QFields) : W64 := encHead 0x0B f.h ++ f.nrep ++ f.mask ++ f.strd ++ (0 : BitVec 34)

/-- The units of a literal, low half first (R43). -/
def encLit : Lit → List W32
  | .none => []
  | .w32 w => [w]
  | .w64 w => [w.extractLsb' 0 32, w.extractLsb' 32 32]

/-- The two units of a base word (R43). -/
def encBase (w : W64) : List W32 := [w.extractLsb' 0 32, w.extractLsb' 32 32]

/-- The units of a view. -/
def View.encode : View → List W32
  | .cf op f => encBase (encFields op f) ++ encLit f.lit
  | .cj op f => encBase (encJ op f) ++ (match f.join with | some j => [j] | none => [])
  | .cs op f => encBase (encS op f) ++ encLit f.lit
  | .cq f => encBase (encQ f)

/-- The units of an instruction; none for the steps of other agents, which have no word (R64). -/
def encode (i : Instr) : List W32 :=
  match i.view with
  | none => []
  | some v => v.encode

/-! ## Table words -/

/-- The units of an instruction given as one number, bit 0 the least significant bit of its first unit; bits above nbits
are zero, up to the longest instruction of 16 bytes (R43). -/
def tableUnits (nbits w : Nat) : List W32 :=
  let x := w % 2 ^ nbits
  [BitVec.ofNat 32 x, BitVec.ofNat 32 (x >>> 32), BitVec.ofNat 32 (x >>> 64), BitVec.ofNat 32 (x >>> 96)]

/-- The instruction the decoder reads from such a number. -/
def decodeTableWord (nbits w : Nat) : Option Instr :=
  match decode (tableUnits nbits w) with
  | .ok i => some i
  | .error _ => none

end Sys2Proof
end

