-- ==== Sys2Proof/Machine/Float.lean ====
section
/-! DEFINITION. Numbers (spec/04 R66 to R88, and the exact results of spec/06 R128 to R138): float formats, the one rounding
function, exact arithmetic, the special functions, plane-nested blocks and the accumulator's term. -/
namespace Sys2Proof

/-! ## Formats (R68) -/

/-- A float format: exponent and fraction widths and bias; e4m3 has no infinities (R68). -/
structure Fmt where
  eb : Nat
  fb : Nat
  bias : Nat
  e4 : Bool
  deriving DecidableEq, Repr

/-- The format of a float type (R68); other types read as f32. -/
def Ty.fmt : Ty → Fmt
  | .f16 => ⟨5, 10, 15, false⟩
  | .bf16 => ⟨8, 7, 127, false⟩
  | .e4m3 => ⟨4, 3, 7, true⟩
  | .e5m2 => ⟨5, 2, 15, false⟩
  | _ => ⟨8, 23, 127, false⟩

/-- The sign bit's weight. -/
def Fmt.signBit (f : Fmt) : Nat := 2 ^ (f.eb + f.fb)
/-- Bits of +∞ (R68); in e4m3 the pattern above the largest finite value, which is its NaN. -/
def Fmt.infBits (f : Fmt) : Nat := if f.e4 then 0x7F else (2 ^ f.eb - 1) * 2 ^ f.fb
/-- Bits of the largest finite value (R68). -/
def Fmt.maxBits (f : Fmt) : Nat := f.infBits - 1
/-- The canonical NaN (R68). -/
def Fmt.nan (f : Fmt) : Nat := if f.e4 then 0x7F else f.infBits + 2 ^ (f.fb - 1)

/-- A float value: NaN, an infinity, or (-1)^neg · m · 2^e exactly (R68). -/
inductive FV
  | nan
  | inf (neg : Bool)
  | fin (neg : Bool) (m : Nat) (e : Int)
  deriving DecidableEq, Repr

/-- The value of a bit pattern (R68). -/
def Fmt.val (f : Fmt) (b : Nat) : FV :=
  let neg := b.testBit (f.eb + f.fb)
  let ex := bits b f.fb f.eb
  let fr := b % 2 ^ f.fb
  if f.e4 && b % f.signBit = 0x7F then .nan
  else if !f.e4 && ex = 2 ^ f.eb - 1 then if fr = 0 then .inf neg else .nan
  else if ex = 0 then .fin neg fr (1 - (f.bias : Int) - f.fb)
  else .fin neg (2 ^ f.fb + fr) ((ex : Int) - f.bias - f.fb)

/-! ## Rounding (R70 to R72) -/

/-- An exact magnitude: m · 2^e, or, with st, a value strictly between m · 2^e and (m + 1) · 2^e. -/
structure Mag where
  m : Nat
  e : Int
  st : Bool := false
  deriving DecidableEq, Repr

/-- m shifted right by sh places, or left when sh is negative. -/
def shiftZ (m : Nat) (sh : Int) : Nat := if sh ≥ 0 then m >>> sh.toNat else m <<< (-sh).toNat

/-- Whether the mode takes (t + 1)·u: g is r / 2^sh, a little more with st (R70). Modes by code of R52. -/
def roundsUp (rm : Nat) (neg : Bool) (t r sh : Nat) (st : Bool) (rho : Nat) : Bool :=
  let half := 2 ^ (sh - 1)
  let pos := r != 0 || st
  match rm with
  | 0 => sh != 0 && (r > half || (r = half && (st || t % 2 = 1)))
  | 1 => false
  | 2 => pos && !neg
  | 3 => pos && neg
  | 4 => (r <<< 32) >>> sh + rho ≥ 2 ^ 32
  | _ => sh != 0 && r ≥ half

/-- t, and whether (t + 1) is taken, for spacing 2^u (R70). -/
def roundAt (rm : Nat) (neg : Bool) (x : Mag) (u : Int) (rho : Nat) : Nat :=
  let sh := u - x.e
  let t := shiftZ x.m sh
  let s := sh.toNat
  let r := x.m % 2 ^ s
  if roundsUp rm neg t r s x.st rho then t + 1 else t

/-- The result on overflow (R71). -/
def overflowBits (f : Fmt) (rm : Nat) (neg : Bool) : Nat :=
  match rm with
  | 1 => f.maxBits
  | 2 => if neg then f.maxBits else f.infBits
  | 3 => if neg then f.infBits else f.maxBits
  | _ => f.infBits

/-- round_F of a magnitude with its sign, without the sign bit's special cases of NaN (R70, R71). -/
def roundMag (f : Fmt) (rm : Nat) (neg : Bool) (x : Mag) (rho : Nat) : Nat :=
  let s := if neg then f.signBit else 0
  if x.m = 0 && !x.st then s
  else
    let emin : Int := 1 - (f.bias : Int)
    let ex := max ((x.m.log2 : Int) + x.e) emin
    let t := roundAt rm neg x (ex - f.fb) rho
    let b := (ex - emin).toNat * 2 ^ f.fb + t
    if b > f.maxBits then s + overflowBits f rm neg else s + b

/-- The end of a conversion to an 8-bit format, and NaN for an e4m3 infinity (R72). -/
def satFix (f : Fmt) (sat : Bool) (b : Nat) : Nat :=
  if b % f.signBit = f.infBits then
    if sat then b / f.signBit * f.signBit + f.maxBits else if f.e4 then 0x7F else b
  else b

/-- round_F of a value (R69 to R72): NaN canonical, infinities kept or saturated. -/
def roundFV (f : Fmt) (rm : Nat) (sat : Bool) (x : FV) (rho : Nat) : Nat :=
  match x with
  | .nan => f.nan
  | .inf neg => satFix f sat ((if neg then f.signBit else 0) + f.infBits)
  | .fin neg m e => satFix f sat (roundMag f rm neg ⟨m, e, false⟩ rho)

/-- round_int of an exact value (R71). -/
def roundInt (rm : Nat) (neg : Bool) (x : Mag) (rho : Nat) : Int :=
  let t : Int := roundAt rm neg x 0 rho
  if neg then -t else t

/-! ## Exact arithmetic (R69) -/

/-- The signed integer m of a value with sign. -/
def sgn (neg : Bool) (m : Nat) : Int := if neg then -(m : Int) else m

/-- An integer times 2^e as a value; zero takes the given sign. -/
def FV.ofInt (x : Int) (e : Int) (zneg : Bool) : FV :=
  if x = 0 then .fin zneg 0 e else .fin (x < 0) x.natAbs e

/-- a + b exactly; a zero sum of opposite signs is +0, or -0 under `.rd` (R69). -/
def FV.add (rm : Nat) (a b : FV) : FV :=
  match a, b with
  | .nan, _ => .nan
  | _, .nan => .nan
  | .inf x, .inf y => if x = y then .inf x else .nan
  | .inf x, _ => .inf x
  | _, .inf y => .inf y
  | .fin na ma ea, .fin nb mb eb =>
    let e := min ea eb
    let x := sgn na (ma <<< (ea - e).toNat) + sgn nb (mb <<< (eb - e).toNat)
    .ofInt x e (if na = nb then na else rm = 3)

/-- -a. -/
def FV.neg : FV → FV
  | .nan => .nan
  | .inf x => .inf (!x)
  | .fin n m e => .fin (!n) m e

/-- a · b exactly (R69). -/
def FV.mul (a b : FV) : FV :=
  match a, b with
  | .nan, _ => .nan
  | _, .nan => .nan
  | .inf x, .inf y => .inf (x != y)
  | .inf x, .fin y m _ => if m = 0 then .nan else .inf (x != y)
  | .fin y m _, .inf x => if m = 0 then .nan else .inf (x != y)
  | .fin na ma ea, .fin nb mb eb => .fin (na != nb) (ma * mb) (ea + eb)

/-- An exact product with a zero of positive sign (R70). -/
def FV.plusZero : FV → FV
  | .fin _ 0 e => .fin false 0 e
  | x => x

/-- a < b on numbers; false with NaN. -/
def FV.lt (a b : FV) : Bool :=
  match a, b with
  | .nan, _ => false
  | _, .nan => false
  | .inf x, .inf y => x && !y
  | .inf x, _ => x
  | _, .inf y => !y
  | .fin na ma ea, .fin nb mb eb =>
    let e := min ea eb
    sgn na (ma <<< (ea - e).toNat) < sgn nb (mb <<< (eb - e).toNat)

/-- a = b on numbers, -0 equal to +0; false with NaN (R130). -/
def FV.eq (a b : FV) : Bool := a != .nan && b != .nan && !(a.lt b) && !(b.lt a)

/-- Whether a value is NaN. -/
def FV.isNan (a : FV) : Bool := a = .nan

/-- An element as an instruction that is no move writes it: every NaN is the canonical one (R69). -/
def Ty.canon (t : Ty) (x : Nat) : Nat := if t.isFloat && (t.fmt.val x).isNan then t.fmt.nan else x

/-- The comparison of R54 by CMP code. -/
def fcmpVal (cmp : Nat) (a b : FV) : Bool :=
  let u := a.isNan || b.isNan
  match cmp with
  | 0 => a.eq b
  | 1 => !u && !(a.eq b)
  | 2 => a.lt b
  | 3 => a.lt b || a.eq b
  | 4 => b.lt a
  | 5 => b.lt a || a.eq b
  | 6 => u || a.eq b
  | 7 => u || !(a.eq b)
  | 8 => u || a.lt b
  | 9 => u || a.lt b || a.eq b
  | 10 => u || b.lt a
  | 11 => u || b.lt a || a.eq b
  | 12 => !u
  | _ => u

/-- fmin (gt false) and fmax (gt true) on bit patterns, -0 below +0; num selects minimumNumber and maximumNumber (R129). -/
def fminmax (f : Fmt) (gt num : Bool) (a b : Nat) : Nat :=
  let x := f.val a
  let y := f.val b
  match x.isNan, y.isNan with
  | true, true => f.nan
  | true, false => if num then b else f.nan
  | false, true => if num then a else f.nan
  | false, false =>
    let aLess := x.lt y || (x.eq y && a.testBit (f.eb + f.fb))
    if aLess = gt then b else a

/-- The class mask of R131. -/
def fclassMask (f : Fmt) (b : Nat) : Nat :=
  match f.val b with
  | .nan => if b.testBit (f.fb - 1) then 2 ^ 9 else 2 ^ 8
  | .inf n => if n then 2 ^ 0 else 2 ^ 7
  | .fin n m _ =>
    if m = 0 then if n then 2 ^ 3 else 2 ^ 4
    else if bits b f.fb f.eb = 0 then if n then 2 ^ 2 else 2 ^ 5
    else if n then 2 ^ 1 else 2 ^ 6

/-! ## Special functions (R132, R133) -/

/-- ⌊√n⌋, one bit a step from bit k down. -/
def isqrtGo (n : Nat) : Nat → Nat → Nat
  | 0, r => r
  | k + 1, r =>
    let c := r + 2 ^ k
    isqrtGo n k (if c * c ≤ n then c else r)

/-- ⌊√n⌋. -/
def isqrt (n : Nat) : Nat := isqrtGo n (n.log2 / 2 + 1) 0

/-- Fraction bits of the fixed-point work of the transcendental functions. -/
def fxP : Nat := 512
/-- ⌊π · 2^512⌋. -/
def piFx : Nat := 0x3243f6a8885a308d313198a2e03707344a4093822299f31d0082efa98ec4e6c89452821e638d01377be5466cf34e90c6cc0ac29b7c97c50dd3f84d5b5b5470917
/-- ⌊ln 2 · 2^512⌋. -/
def ln2Fx : Nat := 0xb17217f7d1cf79abc9e3b39803f2f6af40f343267298b62d8a0d175b8baafa2be7b876206debac98559552fb4afa1b10ed2eae35c138214427573b291169b825

/-- Sum of the terms t, t·x/k, t·x/k·x/(k+1), ... in fixed point: n terms of the exponential series. -/
def expGo (x : Nat) : Nat → Nat → Nat → Nat → Nat
  | 0, _, _, acc => acc
  | n + 1, k, t, acc => expGo x n (k + 1) ((t * x) >>> fxP / k) (acc + t)

/-- exp of a fixed-point number in [0, 1). -/
def expFx (x : Nat) : Nat := expGo x 110 1 (2 ^ fxP) 0

/-- The sine series in fixed point: alternating terms t·x²/((k+1)(k+2)). -/
def sinGo (x2 : Nat) : Nat → Nat → Nat → Nat → Nat → Nat
  | 0, _, _, p, q => p - q
  | n + 1, k, t, p, q => sinGo x2 n (k + 2) ((t * x2) >>> fxP / ((k + 1) * (k + 2))) q (p + t)

/-- sin(π·z) of a fixed-point z in [0, 1/2], with an even number of series terms. -/
def sinpiFx (z : Nat) : Nat :=
  let x := (piFx * z) >>> fxP
  let r := sinGo ((x * x) >>> fxP) 80 1 x 0 0
  min r (2 ^ fxP - 1)

/-- log2 of x in [1, 2), x fixed point, one bit a step by squaring. -/
def lg2Go : Nat → Nat → Nat → Nat
  | 0, _, acc => acc
  | n + 1, x, acc =>
    let y := (x * x) >>> fxP
    if y ≥ 2 ^ (fxP + 1) then lg2Go n (y / 2) (2 * acc + 1) else lg2Go n y (2 * acc)

/-- 1/a for a magnitude m · 2^e. -/
def rcpMag (m : Nat) (e : Int) : Mag :=
  let k := m.log2 + 96
  ⟨2 ^ k / m, -(k : Int) - e, 2 ^ k % m != 0⟩

/-- √a. -/
def sqrtMag (m : Nat) (e : Int) : Mag :=
  let s := 200 + (if e % 2 = 0 then 0 else 1)
  let n := m <<< s
  let r := isqrt n
  ⟨r, (e - s) / 2, r * r != n⟩

/-- 1/√a. -/
def rsqrtMag (m : Nat) (e : Int) : Mag :=
  let o : Nat := if e % 2 = 0 then 0 else 1
  let n := m <<< o
  let k := n.log2 + 128
  let r := isqrt (2 ^ (2 * k) / n)
  ⟨r, -(k : Int) - (e - o) / 2, r * r * n != 2 ^ (2 * k)⟩

/-- 2^a for a = ±m · 2^e. -/
def ex2Mag (neg : Bool) (m : Nat) (e : Int) : Mag :=
  if (m.log2 : Int) + e ≥ 12 then ⟨1, if neg then -5000 else 5000, neg⟩
  else
    let x := sgn neg (shiftZ m (-(e + fxP)))
    let n := x / 2 ^ fxP
    let r := (x % 2 ^ fxP).toNat
    if r = 0 then ⟨1, n, false⟩ else ⟨expFx ((ln2Fx * r) >>> fxP), n - fxP, true⟩

/-- log2 a for a = m · 2^e > 0: sign and magnitude; an exact power of two gives an integer, +0 for 1. -/
def lg2Mag (m : Nat) (e : Int) : Bool × Mag :=
  let k := (m.log2 : Int) + e
  if m = 2 ^ m.log2 then (k < 0, ⟨k.natAbs, 0, false⟩)
  else
    let x := m <<< (fxP - m.log2)
    let v := k * 2 ^ 200 + (lg2Go 200 x 0 : Nat)
    if v ≥ 0 then (false, ⟨v.toNat, -200, true⟩) else (true, ⟨(-v - 1).toNat, -200, true⟩)

/-- a mod 2 in fixed point, for a = m · 2^e ≥ 0: exact, since e ≥ -512 for every format. -/
def mod2Fx (m : Nat) (e : Int) : Nat := shiftZ m (-(e + fxP)) % 2 ^ (fxP + 1)

/-- sin(π·t) for t in [0, 2) fixed point: sign and magnitude, zero at integers, one at half-integers. -/
def sinTurn (t : Nat) : Bool × Mag :=
  let one := 2 ^ fxP
  let neg := t ≥ one
  let z := t % one
  if z = 0 then (neg, ⟨0, 0, false⟩)
  else if z = one / 2 then (neg, ⟨1, 0, false⟩)
  else (neg, ⟨sinpiFx (if z < one / 2 then z else one - z), -(fxP : Int), true⟩)

/-- A special function of R132 by opcode, with the special operands of R133. -/
def specialFn (f : Fmt) (op : Nat) (rm : Nat) (b rho : Nat) : Nat :=
  let nan := f.nan
  let inf (n : Bool) := (if n then f.signBit else 0) + f.infBits
  let zero (n : Bool) := if n then f.signBit else 0
  let one := roundMag f 0 false ⟨1, 0, false⟩ 0
  let rnd (n : Bool) (x : Mag) := roundMag f rm n x rho
  match f.val b with
  | .nan => nan
  | .inf n =>
    match op with
    | 0x7A => zero n
    | 0x7B => if n then nan else zero false
    | 0x7C => if n then nan else inf false
    | 0x7D => if n then zero false else inf false
    | 0x7E => if n then nan else inf false
    | _ => nan
  | .fin n m e =>
    if m = 0 then
      match op with
      | 0x7A => inf n
      | 0x7B => inf n
      | 0x7C => zero n
      | 0x7D => one
      | 0x7E => inf true
      | 0x7F => zero n
      | _ => one
    else match op with
      | 0x7A => rnd n (rcpMag m e)
      | 0x7B => if n then nan else rnd false (rsqrtMag m e)
      | 0x7C => if n then nan else rnd false (sqrtMag m e)
      | 0x7D => rnd false (ex2Mag n m e)
      | 0x7E => if n then nan else let (s, x) := lg2Mag m e; rnd (s && x.m != 0) x
      | 0x7F =>
        let (s, x) := sinTurn (mod2Fx m e)
        if x.m = 0 then zero n else rnd (s != n) x
      | _ =>
        let (s, x) := sinTurn ((mod2Fx m e + 2 ^ (fxP - 1)) % 2 ^ (fxP + 1))
        if x.m = 0 then zero false else rnd s x

/-! ## Rounding to integers, fractions, scaling (R134) -/

/-- `frnd`: round_int carrying the sign of a. -/
def frndVal (f : Fmt) (rm b rho : Nat) : Nat :=
  match f.val b with
  | .nan => f.nan
  | .inf n => (if n then f.signBit else 0) + f.infBits
  | .fin n m e => roundMag f 0 n ⟨(roundInt rm n ⟨m, e, false⟩ rho).natAbs, 0, false⟩ 0

/-- `frac`: round_F(a - ⌊a⌋). -/
def fracVal (f : Fmt) (rm b rho : Nat) : Nat :=
  match f.val b with
  | .nan => f.nan
  | .inf _ => f.nan
  | .fin n m e =>
    let fl := roundInt 3 n ⟨m, e, false⟩ 0
    match FV.add 0 (.fin n m e) (.ofInt (-fl) 0 false) with
    | .fin _ m' e' => roundMag f rm false ⟨m', e', false⟩ rho
    | _ => f.nan

/-- `ldexp`: round_F(a · 2^n). -/
def ldexpVal (f : Fmt) (rm b : Nat) (n : Int) (rho : Nat) : Nat :=
  match f.val b with
  | .nan => f.nan
  | .inf s => (if s then f.signBit else 0) + f.infBits
  | .fin s m e =>
    let k := max (-1000) (min 1000 n)
    roundMag f rm s ⟨m, e + k, false⟩ rho

/-! ## Integers (R66) -/

/-- The integer of an element of width w (R66). -/
def toInt (signed : Bool) (w x : Nat) : Int :=
  let y := x % 2 ^ w
  if signed && y ≥ 2 ^ (w - 1) then (y : Int) - 2 ^ w else y

/-- The low w bits of an integer (R66). -/
def ofInt (w : Nat) (x : Int) : Nat := (x % 2 ^ w).toNat

/-- The range of a type (R66). -/
def intMin (signed : Bool) (w : Nat) : Int := if signed then -(2 ^ (w - 1)) else 0
def intMax (signed : Bool) (w : Nat) : Int := if signed then 2 ^ (w - 1) - 1 else 2 ^ w - 1

/-- Clamped to the range of the type (R66). -/
def clampInt (signed : Bool) (w : Nat) (x : Int) : Int := max (intMin signed w) (min (intMax signed w) x)

/-- Low bits, or clamped under `.sat` (R66). -/
def keepInt (signed : Bool) (w : Nat) (sat : Bool) (x : Int) : Nat :=
  ofInt w (if sat then clampInt signed w x else x)

/-! ## Conversions (R67, R72, R75, R136) -/

/-- Float to integer (R67). -/
def floatToInt (f : Fmt) (dt : Ty) (rm b rho : Nat) : Nat :=
  match f.val b with
  | .nan => 0
  | .inf n => ofInt dt.width (if n then intMin dt.signed dt.width else intMax dt.signed dt.width)
  | .fin n m e => keepInt dt.signed dt.width true (roundInt rm n ⟨m, e, false⟩ rho)

/-- One element converted from st to dt (R136); equal types copy bits (R181). -/
def convElem (dt st : Ty) (rm : Nat) (sat : Bool) (b rho : Nat) : Nat :=
  if dt = st || !(dt.isFloat || dt.isInt) || !(st.isFloat || st.isInt) then b % 2 ^ dt.width
  else if dt.isFloat then
    if st.isFloat then roundFV dt.fmt rm sat (st.fmt.val b) rho
    else
      let x := toInt st.signed st.width b
      roundMag dt.fmt rm (x < 0) ⟨x.natAbs, 0, false⟩ rho
  else if st.isFloat then floatToInt st.fmt dt rm b rho
  else keepInt dt.signed dt.width sat (toInt st.signed st.width b)

/-- The residual of `cvtef`: a - n, rounded to nearest-even in f32 (R75). -/
def residual (dt : Ty) (a n : Nat) : Nat :=
  let f32 := Ty.f32.fmt
  match dt.fmt.val n, f32.val a with
  | .nan, _ => f32.nan
  | _, .nan => f32.nan
  | .inf s, _ => (if s then 0 else f32.signBit) + f32.infBits
  | nv, av => roundFV f32 0 false (FV.add 0 av nv.neg) 0

/-! ## The generator (R73) -/

/-- gamma of SplitMix64 (R73). -/
def gamma : Nat := 0x9E3779B97F4A7C15

/-- mix of R73. -/
def mix (z : Nat) : Nat :=
  let z1 := ((z ^^^ (z >>> 30)) * 0xBF58476D1CE4E5B9) % 2 ^ 64
  let z2 := ((z1 ^^^ (z1 >>> 27)) * 0x94D049BB133111EB) % 2 ^ 64
  z2 ^^^ (z2 >>> 31)

/-- The state after n draws (R73, R74). -/
def zAfter (z : W64) (n : Nat) : W64 := BitVec.ofNat 64 (z.toNat + n * gamma)

/-- The 32-bit value of draw number n, counted from 0 (R73). -/
def drawAt (z : W64) (n : Nat) : Nat := mix ((zAfter z (n + 1)).toNat) >>> 32

/-- The draw of a lane instruction: draw n under `.rs`, and no matter otherwise. -/
def rho (rm : Nat) (z : W64) (n : Nat) : Nat := if rm = 4 then drawAt z n else 0

/-! ## Plane-nested blocks (R77 to R84) -/

/-- E and F of a scale (R77). -/
def scaleE (s : Nat) : Nat := bits s 3 7
def scaleF (s : Nat) : Nat := s % 8

/-- The mantissa seen through the first k planes (R79). -/
def truncMant (k : Nat) (m : Int) : Int := m - m % 2 ^ (8 - k)

/-- The value of an element of a block (R77, R78, R84). -/
def blockVal (s k : Nat) (m : Nat) : FV :=
  let e := scaleE s
  if e = 0 then .fin false 0 0
  else if e = 127 then .nan
  else .ofInt (truncMant k (toInt true 8 m) * (8 + scaleF s)) ((e : Int) - 73) false

/-- a ≤ b · c / 128 · ... : the test M ≤ s · 127/128 of R83 for scale code sc and magnitude m · 2^e. -/
def scaleFits (sc m : Nat) (e : Int) : Bool :=
  let se : Int := (scaleE sc : Int) - 66
  let lo := min e (se - 7)
  m <<< (e - lo).toNat ≤ ((8 + scaleF sc) * 127) <<< (se - 7 - lo).toNat

/-- The least scale code from sc on, at most n codes further, that fits (R83). -/
def leastScale (m : Nat) (e : Int) : Nat → Nat → Option Nat
  | 0, _ => none
  | n + 1, sc => if scaleFits sc m e then some sc else leastScale m e n (sc + 1)

/-- The greater of two finite magnitudes. -/
def magMax (a b : Nat × Int) : Nat × Int :=
  let e := min a.2 b.2
  if a.1 <<< (a.2 - e).toNat ≥ b.1 <<< (b.2 - e).toNat then a else b

/-- Conversion of a block (R83): the scale and the mantissas as bytes. rhos gives the draw of each element. -/
def toBlock (rm : Nat) (xs : List FV) (rhos : List Nat) : Nat × List Nat :=
  let bad := xs.any fun x => match x with | .fin _ _ _ => false | _ => true
  let zeros := xs.map fun _ => 0
  if bad then (127 * 8, zeros)
  else
    let mags := xs.map fun x => match x with | .fin _ m e => (m, e) | _ => (0, 0)
    let big := (mags.filter fun p => p.1 != 0).foldl (fun acc p => if acc.1 = 0 then p else magMax acc p) (0, 0)
    if big.1 = 0 then (0, zeros)
    else match leastScale big.1 big.2 1008 8 with
      | none => (127 * 8, zeros)
      | some sc =>
        let se : Int := (scaleE sc : Int) - 66
        let den := 8 + scaleF sc
        (sc, (xs.zip rhos).map fun (x, r) => match x with
          | .fin n m e =>
            -- x · 128 / s, with 64 extra bits before the floor
            let num := m <<< 100
            ofInt 8 (roundInt rm n ⟨num / den, e + 7 - se - 100, num % den != 0⟩ r)
          | _ => 0)

/-! ## The accumulator (R85 to R87) -/

/-- The term of one K block (R86): none when a NaN block takes part, else the multiple of 2^-144. -/
def accTerm (sa sb : Nat) (dot : Int) : Option Int :=
  let ea := scaleE sa
  let eb := scaleE sb
  if ea = 127 || eb = 127 then none
  else if ea = 0 || eb = 0 then some 0
  else some (dot * (8 + scaleF sa) * (8 + scaleF sb) * 2 ^ (ea + eb - 2))

/-- The value of an accumulator element (R85). -/
def accVal (nan : Bool) (x : Nat) : FV :=
  if nan then .nan else .ofInt (toInt true 320 x) (-144) false

end Sys2Proof
end

