-- ==== Sys2Proof/Config.lean ====
section
/-! DEFINITION. The free values of the model: constants with no body, so that a claim holds whatever they are, and the
figures the spec fixes for the module (spec/00 R2). -/
namespace Sys2Proof.Config

/-- A choice the spec leaves open (R37, R222, R351, R427): the first argument is the draw counter of the State, the second
tells apart the choices of one step. DESIGN CHOICE, log 4: a free value. -/
opaque free : Nat → Nat → Nat

/-- Where the search for the n-th launch stamp of a partition begins (R24): a value that the spec does not give. Log 4. -/
opaque launchStamp : Nat → Nat

/-- Signature of a message under the identity key (R421): the keys are the device's own. Log 4. -/
opaque identitySign : List (BitVec 8) → List (BitVec 8)
/-- Signature by the install key (R411). Log 4. -/
opaque installSign : List (BitVec 8) → List (BitVec 8)
/-- Signature by the root key, which stands in the certificates of the identity and install keys (R411, R421). Log 4. -/
opaque rootSign : List (BitVec 8) → List (BitVec 8)
/-- The public moduli of the identity and install keys, 384 bytes each (R411, R421). Log 4. -/
opaque identityModulus : List (BitVec 8)
/-- See identityModulus. -/
opaque installModulus : List (BitVec 8)
/-- The root public modulus, 384 bytes (R410). Log 4. -/
opaque rootModulus : List (BitVec 8)
/-- The silicon stepping of the revision identity record (R419). Log 4. -/
opaque stepping : BitVec 32
/-- The Oliesh translation version that a boot image carries (R419). Log 4. -/
opaque olieshVersion : List (BitVec 8) → BitVec 32
/-- One word of a native text that Oliesh chooses (R409): a `nop`; a `mov` of v register n to o register m; or instruction j of the
kernel's portable text, its source fields a, b and c replaced by the o or l codes given. Each with its STALL. -/
inductive Planned
  | nop (stall : Nat)
  | mov (stall m n : Nat)
  | instr (stall j : Nat) (a b c : Option Nat)
  deriving DecidableEq, Repr

/-- Oliesh's choice of native text for a kernel, fixed by REVID and the object (R409). Log 4, log 6: a free value. -/
opaque oliesh : List (BitVec 8) → List (BitVec 8) → Nat → List Planned
/-- How far beyond the object's native text Oliesh places the native target of a branch that leaves its kernel's text (R407), by kernel and
instruction. Log 4, log 6: a free value. -/
opaque olieshOut : List (BitVec 8) → List (BitVec 8) → Nat → Nat → Nat
/-- Whether an operand value of portable text is a code label (R90), by the object, the instruction's offset and the field: an object does not
list its labels. Log 4, log 6: a free value. -/
opaque codeLabel : List (BitVec 8) → Nat → Nat → Bool
/-- The digest with which the firmware extends M1 for a partition setup record of partition n (R420), by its words. Log 4. -/
opaque setupDigest : Nat → List Nat → List (BitVec 8)
/-- The length of a boot image, by the addresses written in the window (R418): not stated. Log 4. -/
opaque imageLength : List Nat → Nat
/-- The root modulus of a boot image, what it signs and its signature (R418): the layout of an image is not stated. Log 4. -/
opaque imageModulus : List (BitVec 8) → List (BitVec 8)
/-- See imageModulus. -/
opaque imageSigned : List (BitVec 8) → List (BitVec 8)
/-- See imageModulus. -/
opaque imageSignature : List (BitVec 8) → List (BitVec 8)

/-- Compute dies of the module (R2). -/
def dies : Nat := 4
/-- Core pairs per die (R2). -/
def pairsPerDie : Nat := 24
/-- Routers per die (R271). -/
def routersPerDie : Nat := 48
/-- Slices per die (R2). -/
def slicesPerDie : Nat := 16
/-- Gangs in one core's active set (R356). -/
def activeSet : Nat := 8
/-- Lanes of a field (R146). -/
def fieldLanes : Nat := 256
/-- Installed CXL capacity in bytes, up to 8 TiB (R207): each module's own. Log 4. -/
opaque cxlCapacity : Nat

end Sys2Proof.Config
end

