-- ==== Sys2Proof/Machine/State.lean ====
section
/-! DEFINITION. The state of the module as plain data (INVENTORY.md, "State"), the reasons a step can stop, and the state
after power-up. Every structure cites the rule of the spec that names what it holds. -/
namespace Sys2Proof.Machine

open Sys2Proof

/-- Sparse bytes: addresses strictly rising, no entry equal to 0, which is what an unlisted address reads as
(R204 for scratchpad; log 3 for global memory). -/
abbrev Memory := List Host.Cell

/-! ## One lane, one gang -/

/-- A virtual lane (R19, R22, R23, R73, R152). l holds l0 and l1 at 4·bank + 2·slot + i; bank 1 is the handler's. -/
structure Lane where
  v : List W32
  p : BitVec 16
  o : List W32
  oh : List W32
  l : List W64
  z : W64
  exited : Bool
  deriving DecidableEq, Repr

/-- A register that an issue writes later (R32). -/
inductive Tgt
  | v (lane n : Nat)
  | s (n : Nat)
  | p (lane n : Nat)
  | o (lane bank n : Nat)
  | l (lane bank slot : Nat)
  | m (n : Nat)
  | k (n : Nat)
  | sys (n : Nat)
  | bc (n : Nat)
  deriving DecidableEq, Repr

/-- A register result in flight: it lands at core cycle due (R32, R33). slot is the thread that issued it. rmw names the scratchpad
RMW that gives its value, 0 for none. keepBits: bits of the register that it leaves alone (R157). keep: its value is what the listed
registers hold at that core cycle (R22: the destination of a lane whose guard is false). -/
structure Pend where
  due : Nat
  slot : Nat
  tgt : Tgt
  val : Nat
  rmw : Nat := 0
  keepBits : Nat := 0
  keep : Option (Nat × List Tgt) := none
  deriving DecidableEq, Repr

/-- A scratchpad write or RMW in flight (R29, R228, R231, R238). -/
inductive FxOp
  | store (bytes : List Byte)
  /-- an atomic of one lane: AOP, operand, expected value, lane and D (R230) -/
  | atom (aop : Nat) (opd exp : W64) (lane d : Nat)
  /-- barrier RMWs (R237); d is the s register of the result, a the linear address the program names -/
  | bini (c : W32)
  | barv (a : Nat) (d : Option Nat)
  | bdrop (a : Nat) (d : Option Nat)
  | bexp (c : W32)
  /-- the drop of an exiting gang with the GEN it has kept (R238) -/
  | bleave (gen : Option Nat)
  deriving DecidableEq, Repr

/-- An effect on the scratchpad of the module's core `core` at linear address addr, applied at cycle due. slot is the thread that
issued it; num numbers the issue. It waits for the operations in deps, and with rel for every earlier effect of its thread (R231, R233).
ret: the cycle at which a register result of an RMW lands, 0 for none. old, once an RMW's place in the coherence order is fixed while it is
not applied yet: the bytes that it reads (R213, R231); ord is its place among those so fixed, dead the bytes written since then by writes
later in that order. -/
structure Fx where
  due : Nat
  slot : Nat
  core : Nat
  addr : Nat
  len : Nat
  deps : List Nat
  op : FxOp
  num : Nat := 0
  rel : Bool := false
  ret : Nat := 0
  old : Option (List Byte) := none
  ord : Nat := 0
  dead : List Nat := []
  deriving DecidableEq, Repr

/-- A scratchpad read of a later pass, made at core cycle at_ for lane lane (R151): its value goes to the results of issue num whose register
tgt is the destination's first. -/
structure Load where
  at_ : Nat
  slot : Nat
  num : Nat
  tgt : Tgt
  core : Nat
  addr : Nat
  len : Nat
  ty : Ty
  deriving DecidableEq, Repr

/-- A repeat counter (R26, R100): nrep 0 for none; the step applied so far is rep. -/
structure Rep where
  nrep : Nat
  rep : Nat
  mask : BitVec 4
  strd : Nat
  deriving DecidableEq, Repr

/-- What an instruction held at issue waits for: accesses that an `.acq` part holds back (R247), the engine's limit, a tag and lock table
entries, listed by core (R248, R250, R257), or a tag alone. -/
inductive HoldFor
  | acq
  | room (locks : List Nat)
  | tag
  deriving DecidableEq, Repr

/-- What keeps a slot from issuing on (R99, R233, R240, R247, R248, R257, R297 to R299). -/
inductive Block
  | none
  /-- mark: operations numbered from it on are later than the wait -/
  | wait (d : Nat) (conds : List W64) (all : Bool) (limit : Option Nat) (deadline mark : Nat)
  | fence (all : Bool) (since deadline : Nat)
  /-- issues: ISSUES as it stood before this issue was counted (R251) -/
  | chsend (f : Fields) (ch src n deadline issues : Nat)
  /-- turn: its place among the `chrecv` of its cohort (R298) -/
  | chrecv (d ch deadline turn : Nat)
  | chrel (d ch deadline : Nat)
  /-- a `tret` that has issued in this form: it returns once the register results in flight have landed, at core cycle due (R99) -/
  | tret (form due : Nat)
  /-- an instruction held at issue by engine eng (R248, R257, R247); it issues again once ready -/
  | hold (eng deadline : Nat) (why : HoldFor) (ready : Bool)
  deriving DecidableEq, Repr

/-- What a slot's next memory access waits for: `.acq` operations still in flight (R247) and `.acq` RMWs, by issue, not applied yet
(R231). -/
structure Acq where
  ops : List Nat
  nums : List Nat
  deriving DecidableEq, Repr

/-- A thread: the lanes that a slot or a stack entry holds, by the number under which their accesses follow one another in program order, and
what their next memory access waits for. It goes with the lanes onto the stack and back (R170, R215, log 44). -/
structure Thread where
  tid : Nat
  acq : Acq
  deriving DecidableEq, Repr

/-- What a trap keeps while the handler runs: the number of the thread that trapped, the other slot's thread, and the least number of a
thread that the handler starts (R362, R365, log 44). -/
structure Kept where
  tid : Nat
  other : Thread
  first : Nat
  deriving DecidableEq, Repr

/-- A PC slot (R26, R163). next is the earliest core cycle of its next issue (R35); wake that at which an instruction held by an occupied
unit or by an order kind tries again (R34, R231); tid and acq are its thread. -/
structure Slot where
  pc : Nat
  join : Option Nat
  mask : Nat
  live : Bool
  parked : Bool
  parkCyc : Nat
  rep : Rep
  next : Nat
  wake : Nat
  block : Block
  tid : Nat
  acq : Acq
  deriving DecidableEq, Repr

/-- State of a promise table entry (R250, R375). -/
inductive PState
  | free | inFlight | completed | reissue
  deriving DecidableEq, Repr

/-- An entry of the promise table (R250, R254, R368). -/
structure PEntry where
  st : PState
  eng : Nat
  time : Nat
  cur : Nat
  reported : Bool
  opreg : Nat
  status : Nat
  late : Bool
  failed : Nat
  items : Nat
  listed : Nat
  deriving DecidableEq, Repr

/-- What a gang keeps of a launch barrier (R238). -/
structure BarKeep where
  gen : Nat
  valid : Bool
  dropped : Bool
  deriving DecidableEq, Repr

/-- The states of a gang (R354); an active gang is Ready or Blocked as its slots are. -/
inductive GState
  | active | pending | saved | exited
  deriving DecidableEq, Repr

/-- A channel declaration (R269). -/
structure Chan where
  prod : Nat
  cons : Nat
  slots : Nat
  size : Nat
  off : Nat
  deriving DecidableEq, Repr

/-- What a gang knows of its kernel: the launch record and the kernel table entry (R348, R406). text holds the units from
code address base on; waits: each instruction waits for its sources (R409, log 6). -/
structure Kern where
  w : List Nat
  regs : Nat
  scr : Nat
  divd : Nat
  slack : Nat
  hang : Nat
  mat : Bool
  entry : Nat
  handler : Option Nat
  base : Nat
  text : List W32
  data : List Byte
  bars : List (Nat × Nat)
  chans : List Chan
  waits : Bool
  deriving DecidableEq, Repr

/-- A gang (R19 to R26). core is 0 or 1 within the pair; ox, oy its origin (R149); cur the slot that issues; hstack the stack depth that
the trap found, whose entries a handler leaves alone (R362, log 28); hi0 and hi1 the
slot masks of lanes k ≥ 256 kept over a trap (R365); regpc and regcnt the region state (R367), without0, without1 and basepc with basecnt what it
is without the instruction in which slot 0, slot 1 or either is blocked; loads the reads of later passes (R151); kept what a trap keeps of the threads, nextTid the number of the next new thread, and stk the threads of the stack's entries, the lowest first (log 44);
stopAt the core cycle at which it stopped (R369, R375). -/
structure Gang where
  cohort : Nat
  f2 : Nat
  core : Nat
  ox : Nat
  oy : Nat
  kn : Kern
  lanes : List Lane
  s : List W64
  m : List W256
  k : List W64
  s0 : Slot
  s1 : Slot
  cur : Nat
  lastSlot : Nat
  mode : Bool
  tcause : Nat
  chk : Bool
  itemen : Bool
  lateen : Bool
  slackdef : Nat
  late : Nat
  cycBase : Int
  issues : Nat
  regpc : Nat
  regcnt : Nat
  basepc : Nat
  basecnt : Nat
  without0 : Nat × Nat
  without1 : Nat × Nat
  stackd : Nat
  hstack : Nat
  hi0 : Nat
  hi1 : Nat
  kept : Kept
  nextTid : Nat
  stk : List Thread
  stopAt : Nat
  prom : List PEntry
  lastTag : Option Nat
  pend : List Pend
  fx : List Fx
  loads : List Load
  bars : List BarKeep
  st : GState
  lastIssue : Nat
  activeAt : Nat
  eligAt : Option Nat
  deriving DecidableEq, Repr

/-! ## Packets -/

/-- What a packet asks of its home slice for one element: bytes at a local address (R222, R266). -/
inductive PAct
  | read (len : Nat)
  | write (bytes : List Byte)
  /-- RMW by AOP; the expected value for cas; red: a reduce packet with nothing returned (R245) -/
  | rmw (aop : Nat) (opd exp : W64) (red : Bool)
  /-- reduce of `sct` by ROP (R295) -/
  | red (rop : Nat) (bytes : List Byte)
  | watch (b : W64)
  /-- data of a copy or of a channel message, which its item writes whole later (R253, R276) -/
  | copy (bytes : List Byte)
  /-- in a reply: the item status of an element that failed (R256) -/
  | failed (code : Nat)
  deriving DecidableEq, Repr

/-- One element operation of a packet, at a local address; va is the virtual address of its first byte where it is one of a copy. -/
structure PElem where
  item : Nat
  la : Nat
  act : PAct
  data : List Byte
  va : Nat := 0
  deriving DecidableEq, Repr

/-- The way of a packet: from a pair to a home slice and back, or from a home slice to the hub for a line of the CXL tier, and that line
back (R271, R392); out: a packet for another node that serves no operation of the module (R393). -/
inductive Leg
  | net | hub | line | out
  deriving DecidableEq, Repr

/-- A packet (R276): kind, destination and source (node, die, router), slack; op is the operation it serves, fab the fabric word of a packet that serves none
(R393). -/
structure Packet where
  kind : Nat
  dnode : Nat
  ddie : Nat
  drt : Nat
  snode : Nat
  sdie : Nat
  srt : Nat
  slack : Nat
  late : Bool
  bg : Bool
  ndata : Nat
  op : Nat
  elems : List PElem
  at_ : Nat
  leg : Leg := .net
  fab : Nat := 0
  deriving DecidableEq, Repr

/-! ## Engines -/

/-- How an item stands (R253, R256). applied: its home slice has applied it, and the reply is on its way (R233). -/
inductive ItemSt
  | todo | sent | applied | done
  | failed (code addr : Nat)
  deriving DecidableEq, Repr

/-- One item of an operation (R253): index and lane offset for the lane forms, bytes read at issue or returned. Of an item that takes effect
whole once its packets are answered: left, how many are not; wr, that they are those of its writes; bad, the failing bytes so far with
their status. -/
structure Item where
  k : Nat
  idx : Nat
  off : Nat
  addr : Nat
  data : List Byte
  /-- the first byte of its scratchpad source that was poisoned at issue, counted from its first (R211, R288) -/
  psn : Option Nat := none
  left : Nat := 0
  wr : Bool := false
  bad : List (Nat × Nat) := []
  st : ItemSt
  deriving DecidableEq, Repr

/-- An engine operation in flight (R248 to R256, R372). core is the module's core that issued it; view addresses are
relocated by shift (R377). waited: its lock wait is over (R261); probed: its probe pass is done (R267). deps, rel and
issued: what of its slot comes before its accesses (R219, R247); out: packets of items begun that are not sent yet (R278); icyc the core cycle of issue (R306). bytes: the
byte count (R287), or Q + C of a matrix operation (R314). tfault, poisoned, cancelled: it ends with
TRANSLATION_FAULT, ENGINE_ERROR or CANCELLED (R255). -/
structure Op where
  id : Nat
  eng : Nat
  tag : Nat
  cohort : Nat
  f2 : Nat
  slot : Nat
  core : Nat
  pasid : Nat
  part : Nat
  ti : Nat
  slack : Nat
  bg : Bool
  late : Bool
  word : W64
  aval : W64
  bval : W64
  cval : W64
  aux : W64
  rec1 : List Byte
  rec2 : List Byte
  z : W64
  items : List Item
  failedBefore : Nat
  listed : Nat
  bytes : Nat
  opreg : Nat
  time : Nat
  waited : Bool
  probed : Bool
  pins : List (Nat × Nat)
  deps : List Nat
  rel : Bool
  issued : Nat
  out : List Packet := []
  icyc : Nat
  dur : Nat
  started : Option Nat
  mask : W256
  src : List Byte
  poisoned : Bool
  tfault : Bool
  cancelled : Bool
  deriving DecidableEq, Repr

/-- What a range lock covers (R258, R259). -/
inductive LockRange
  /-- lane offsets lo to hi of the listed physical lanes -/
  | lanes (ls : List Nat) (lo hi : Nat)
  /-- B blocks first to first + count - 1 -/
  | blocks (first count : Nat)
  deriving DecidableEq, Repr

/-- An entry of the range-lock table of the module's core `core` (R257), in force from that core's cycle `since` on (R260). -/
structure Lock where
  op : Nat
  core : Nat
  dst : Bool
  since : Nat
  range : LockRange
  deriving DecidableEq, Repr

/-- Tag of a B block (R309); planes k. -/
inductive BTag
  | plain
  | planes (k : Nat)
  | sparse (pat : Nat)
  deriving DecidableEq, Repr

/-- What an issue takes for some core cycles: a quadrant's issue slot, lane integer unit and special-function unit; the core's plane
unit, Benes control, key unit and scratchpad banks (R34, R150, R173, R192, R199, R228). -/
inductive ExecUnit
  | issue (q : Nat)
  | int (q : Nat)
  | special (q : Nat)
  | plane | benes | key | banks
  deriving DecidableEq, Repr

/-- A unit of core 0 or 1 of a pair that is taken until core cycle free. -/
structure Busy where
  core : Nat
  unit : ExecUnit
  free : Nat
  deriving DecidableEq, Repr

/-- A part of a pair's matrix memory that holds poisoned data (R316): a row of a tile, a B block of core 0 or 1, a row of scores (log 31). -/
inductive MatPart
  | acc (tile row : Nat)
  | block (core n : Nat)
  | score (row : Nat)
  deriving DecidableEq, Repr

/-- A core pair: clock (R102, R360), units taken (R34), matrix state (R304 to R311). frac counts parts of a core cycle in steps of 1/2000. -/
structure Pair where
  mhz : Nat
  cyc : Nat
  frac : Nat
  busy : List Busy
  holder : Option Nat
  holderLaunch : Option Nat
  acc : List Memory
  nan : List Memory
  bbuf : List Memory
  tags : List (List BTag)
  sct : Memory
  psn : List MatPart
  matq : List Nat
  deriving DecidableEq, Repr

/-! ## The network, slices, CXL and fabric -/

/-- A router (R271 to R280): the input buffers north, east, south, west, local; the port last granted at each output. -/
structure Router where
  bufs : List (List Packet)
  last : List Nat
  on : Bool
  idle : Nat
  wakeAt : Option Nat
  deriving DecidableEq, Repr

/-- How a request stands at its home slice: not served yet, its CXL line asked for, or its line at hand (R283, R392). -/
inductive Served
  | queued | asked | ready
  deriving DecidableEq, Repr

/-- A home slice (R208, R222, R246, R283, R391): requests in arrival order, watches held, the lines of the CXL tier that its cache
holds, by number, the oldest first. -/
structure Slice where
  q : List (Packet × Served)
  watches : List Packet
  held : List Nat
  deriving DecidableEq, Repr

/-- A packet at a port of the hub: since when, in ns, and the input of the hub by which it came: 2·die for bridge 0, 2·die + 1 for bridge 4,
8 + n for the hub's own of partition n, 12 for its own of the management space (R390). -/
structure Egress where
  pkt : Packet
  since : Nat
  input : Nat
  deriving DecidableEq, Repr

/-- A CXL link (R388, R392): queued requests with the input by which each came, the input last granted, sent requests with their sending time,
failures counted, lines that have come and stand before their die. -/
structure CxlLink where
  q : List Egress
  last : Nat
  sent : List (Packet × Nat)
  failed : Nat
  rx : List Packet
  deriving DecidableEq, Repr

/-- A fabric port (R388, R393 to R395): queue, the input last granted, link, retransmissions; the packets held for a change of port whose home
port it is; the packets that have come from the fabric. -/
structure Port where
  q : List Egress
  last : Nat
  up : Bool
  retx : Nat
  held : List Egress
  rx : List Packet
  deriving DecidableEq, Repr

/-! ## Launches, queues, partitions -/

/-- A launch that has started (R345, R348, R350), at startCyc in the core cycles of the pairs (R357); code numbers the code object that it binds
(R415, R416). parent: cohort, gang and number of the `launch` operation that
made a child. -/
structure Launch where
  id : Nat
  part : Nat
  queue : Option Nat
  seq : Nat
  pasid : Nat
  prio : Nat
  chk : Bool
  seed : W64
  partv : Nat
  args : List W64
  argblock : List Byte
  stamp : W64
  kern : Kern
  handle : Nat
  version : Nat
  code : Nat
  nextCluster : Nat
  started : Nat
  startCyc : List (Nat × Nat)
  ended : Bool
  done : Bool
  parent : Option (Nat × Nat × Nat)
  deriving DecidableEq, Repr

/-- The four counters of a channel (R270). -/
structure ChanCtr where
  sent : Nat
  landed : Nat
  recv : Nat
  rel : Nat
  deriving DecidableEq, Repr

/-- How a cohort stands (R353, R366, R369, R374). -/
inductive CState
  | resident | stopped | quiesced | faulted | saved
  deriving DecidableEq, Repr

/-- What the first fault of a cohort fault reports (R366, R374). -/
structure FaultRec where
  cause : Nat
  gang : Nat
  pc : Nat
  word : W64
  deriving DecidableEq, Repr

/-- What a saved image does not hold of a gang and a restore keeps (R365, R376): core, origin, slot masks of lanes k ≥ 256 kept over a trap,
lanes that have exited, the slot that issued last, the stack depth that a handler leaves alone, and whether the gang has exited itself. -/
structure Hid where
  f2 : Nat
  core : Nat
  ox : Nat
  oy : Nat
  hi0 : Nat
  hi1 : Nat
  exited : Nat
  lastSlot : Nat
  hstack : Nat
  gone : Bool
  deriving DecidableEq, Repr

/-- A cohort (R204, R350, R377): recs are the re-issue records its pair holds (R366, R372); image and imageLen where its saved image
stands or will; pair is the module's pair; cb the view base, pb the physical base; bc the eight Benes
configurations, four of each core (R192); image the address of its saved image; yieldFor the saved cohort for which its save was asked
(R361); noRoom that a yield for it was refused for want of room. -/
structure Cohort where
  id : Nat
  launch : Nat
  c : Nat
  pair : Nat
  cb : Nat
  pb : Nat
  cs : Nat
  st : CState
  fault : Option FaultRec
  chans : List ChanCtr
  bc : List (List Nat)
  saveReq : Bool
  toFault : Bool
  quiescedAt : Nat
  image : Nat
  imageLen : Nat
  recs : List (List Byte)
  hid : List Hid
  yieldFor : Option Nat
  noRoom : Bool
  deriving DecidableEq, Repr

/-- A request packet in a queue (R342, R343, R345). -/
structure Pkt where
  seq : Nat
  words : List W64
  started : Bool
  work : Bool
  done : Bool
  deriving DecidableEq, Repr

/-- A queue interface (R342, R347). -/
structure Queue where
  prio : Nat
  pkts : List Pkt
  nextSeq : Nat
  status : Memory
  deriving DecidableEq, Repr

/-- The command block (R399). -/
structure Cmd where
  cmd : Nat
  a0 : Nat
  a1 : Nat
  a2 : Nat
  status : Nat
  deriving DecidableEq, Repr

/-- An interrupt remap entry (R401). -/
structure Remap where
  v : Bool
  pend : Bool
  dnode : Nat
  addr : Nat
  deriving DecidableEq, Repr

/-- A child launch waiting in the device launch queue (R359). -/
structure Child where
  cohort : Nat
  f2 : Nat
  tag : Nat
  op : Nat
  item : Nat
  pasid : Nat
  prio : Nat
  addr : Nat
  deriving DecidableEq, Repr

/-- A published code object (R413, R415): its number, container bytes and native section; old versions have live = false. ranges: first byte and
length of each kernel's native text; waits: its text is a translation of the device, whose instructions wait for their sources (R409, log 6). -/
structure CodeObj where
  id : Nat
  handle : Nat
  version : Nat
  live : Bool
  obj : List Byte
  native : List Byte
  ranges : List (Nat × Nat)
  waits : Bool
  deriving DecidableEq, Repr

/-- Equinox's counts for one object of a launch barrier (R360): the pairs that arrived in this phase, each with its last time; the pair
last in the phase before and how often in succession. bar is 16 and more for the second core's copies. -/
structure EqxRec where
  cohort : Nat
  bar : Nat
  arrivals : List (Nat × Nat)
  lastPair : Option Nat
  runs : Nat
  deriving DecidableEq, Repr

/-- A clock change that Equinox has settled (R360): the pair that gains, the pair that loses, and when. -/
structure EqxChange where
  gains : Nat
  loses : Nat
  at_ : Nat
  deriving DecidableEq, Repr

/-- A saved partition context (R404); its cohorts' images stand in the shadow band. back: the cohorts that its SWAP saved, which a SWAP to it
restores. -/
structure Ctx where
  cohorts : List Cohort
  launches : List Launch
  queues : List Queue
  childq : List Child
  s2root : Nat
  pasidt : Nat
  sigbase : Nat
  back : List Nat
  deriving DecidableEq, Repr

/-- A partition (R398, R403, R404, R424). swapOut: the cohorts that the SWAP under way saves; swapBack: those that it restores. -/
structure Part where
  en : Bool
  dies : Nat
  node : Nat
  sigbase : Nat
  s2root : Nat
  pasidt : Nat
  shadow : Nat
  shlen : Nat
  heap : Nat
  natok : Bool
  fmin : Nat
  fmax : Nat
  eqen : Bool
  queues : List Queue
  cmd : Cmd
  events : List (List Byte)
  nevents : Nat
  remap : List Remap
  revoked : List Nat
  childq : List Child
  objs : List CodeObj
  stamps : List Nat
  halted : Bool
  halting : Bool
  swapTo : Option Nat
  swapOut : List Nat
  swapBack : List Nat
  inval : Option (Nat × Nat × Nat)
  contexts : List (Nat × Ctx)
  eqx : List EqxRec
  eqxQ : List EqxChange
  deriving DecidableEq, Repr

/-- A page as one stage maps it, or both stages combined (R382): size is the logarithm of its bytes. -/
structure Page where
  node : Nat
  addr : Nat
  size : Nat
  r : Bool
  w : Bool
  sc : Bool
  tier : Bool
  psn : Bool
  deriving DecidableEq, Repr

/-- A mapping that a lookup has found (R382): page is what partition part gives virtual addresses of the PASID from va on. -/
structure TlbEntry where
  part : Nat
  pasid : Nat
  va : Nat
  page : Page
  deriving DecidableEq, Repr

/-- Management words of the whole module (R418, R420, R423, R424). throttled: the throttle steps in force, the latest first, each with its die and the
pairs that it has slowed (R422). -/
structure Mgmt where
  status : Nat
  window : Memory
  mnode : Nat
  hnode : Nat
  nodeWritten : Bool
  power : Nat
  temps : List Nat
  porten : Nat
  head : Nat
  lost : Nat
  ring : List (List Byte)
  meas : List (List Byte)
  staged : List Byte
  throttled : List (Nat × List Nat)
  deriving DecidableEq, Repr

/-- What the module sends out (R393, R401): destination node, status code of a reply, local address and order kind of a request, bytes. -/
structure Reply where
  node : Nat
  status : Nat
  addr : Nat := 0
  ord : Nat := 0
  data : List Byte
  deriving DecidableEq, Repr

/-! ## The whole module -/

/-- The state of the module. g is the gang whose instruction issues; others holds every other gang. half: the second half of the ns, a network cycle being
half a ns (R274). hubLast: the input last granted at each port from the hub into a die (R388). draws is the model's own counter for free values (log 4); inputs holds what hosts and surroundings do next
(log 5). -/
structure State where
  now : Nat
  half : Bool
  g : Gang
  others : List Gang
  cohorts : List Cohort
  launches : List Launch
  pairs : List (Nat × Pair)
  spad : List (Nat × Memory)
  spoison : List (Nat × Nat)
  mem : Memory
  poison : List Nat
  tlb : List TlbEntry
  ops : List Op
  locks : List Lock
  nextOp : Nat
  nextId : Nat
  routers : List (Nat × Router)
  slices : List (Nat × Slice)
  cxl : List CxlLink
  ports : List Port
  hubLast : List Nat
  parts : List Part
  mg : Mgmt
  tickAt : Nat
  replies : List Reply
  draws : Nat
  inputs : List Instr
  deriving DecidableEq, Repr

/-- Why the machine can stop. No step of the model faults: every fault of the spec is a trap, a cohort fault, an item status
or a refused packet, and each is a next state. Safe. -/
inductive Fault
  /-- raised by no step; it keeps the type inhabited. Safe. -/
  | none_
  deriving DecidableEq, Repr

/-- Why the machine can refuse an instruction. -/
inductive Refusal
  /-- an instruction whose meaning is not written yet, by its mnemonic; raised by the dispatch alone. Safe. -/
  | notModelled (mnemonic : String)
  deriving DecidableEq, Repr

/-! ## Values after reset and at gang start -/

/-- A lane of V registers at gang start (R19); z is set by the dispatcher (R73). -/
def Lane.init (regs : Nat) (z : W64) : Lane :=
  { v := List.replicate regs 0, p := 1, o := List.replicate 8 0, oh := List.replicate 8 0, l := List.replicate 8 0,
    z := z, exited := false }

/-- No repeat in progress (R26). -/
def Rep.zero : Rep := { nrep := 0, rep := 0, mask := 0, strd := 1 }

/-- A free slot (R26, R163). -/
def Slot.free : Slot :=
  { pc := 0, join := none, mask := 0, live := false, parked := false, parkCyc := 0, rep := .zero, next := 0,
    wake := 0, block := .none, tid := 0, acq := { ops := [], nums := [] } }

/-- A free promise table entry (R250). -/
def PEntry.free : PEntry :=
  { st := .free, eng := 0, time := 0, cur := 0, reported := false, opreg := 0, status := 0, late := false, failed := 0,
    items := 0, listed := 0 }

/-- No launch barrier joined yet (R238). -/
def BarKeep.none : BarKeep := { gen := 0, valid := false, dropped := false }

/-- The kernel of no gang. -/
def Kern.empty : Kern :=
  { w := [0, 0, 0, 0, 0, 0], regs := 8, scr := 256, divd := 1, slack := 1, hang := 1000, mat := false, entry := 0,
    handler := none, base := 0, text := [], data := [], bars := [], chans := [], waits := false }

/-- The cohort of no gang. -/
def Cohort.empty : Cohort :=
  { id := 0, launch := 0, c := 0, pair := 0, cb := 0, pb := 0, cs := 0, st := .resident, fault := none, chans := [],
    bc := [], saveReq := false, toFault := false, quiescedAt := 0, image := 0, imageLen := 0, recs := [], hid := [], yieldFor := none, noRoom := false }

/-- The gang that stands for none: no slot is live; its registers hold R19's values (log 2). -/
def Gang.idle : Gang :=
  { cohort := 0, f2 := 0, core := 0, ox := 0, oy := 0, kn := .empty, lanes := [Lane.init 8 0],
    s := List.replicate 64 0, m := List.replicate 8 0, k := List.replicate 8 0, s0 := .free, s1 := .free, cur := 0,
    lastSlot := 0, mode := false, tcause := 0, chk := false, itemen := false, lateen := false, slackdef := 1, late := 0,
    cycBase := 0, issues := 0, regpc := 0, regcnt := 0, basepc := 0, basecnt := 0, without0 := (0, 0), without1 := (0, 0), stackd := 0, hstack := 0, hi0 := 0, hi1 := 0,
    kept := { tid := 0, other := { tid := 0, acq := { ops := [], nums := [] } }, first := 1 }, nextTid := 1, stk := [], stopAt := 0, prom := List.replicate 256 .free, lastTag := none, pend := [], fx := [], loads := [], bars := List.replicate 16 .none,
    st := .exited, lastIssue := 0, activeAt := 0, eligAt := none }

/-- A pair at power-up (R304; nominal clock R2, log 2). -/
def Pair.init : Pair :=
  { mhz := 1000, cyc := 0, frac := 0, busy := [], holder := none, holderLaunch := none, acc := List.replicate 4 [],
    nan := List.replicate 4 [], bbuf := [[], []], tags := List.replicate 2 (List.replicate 128 .plain), sct := [],
    psn := [], matq := [] }

/-- An idle, powered router (R275, log 2). -/
def Router.init : Router :=
  { bufs := List.replicate 5 [], last := List.replicate 5 4, on := true, idle := 0, wakeAt := none }

/-- An empty slice. -/
def Slice.init : Slice := { q := [], watches := [], held := [] }

/-- Four channel counters at launch (R270). -/
def ChanCtr.zero : ChanCtr := { sent := 0, landed := 0, recv := 0, rel := 0 }

/-- An empty queue (R342). -/
def Queue.init : Queue := { prio := 0, pkts := [], nextSeq := 0, status := [] }

/-- A partition that is not enabled (R424). -/
def Part.init : Part :=
  { en := false, dies := 0, node := 0, sigbase := 0, s2root := 0, pasidt := 0, shadow := 0, shlen := 0, heap := 0,
    natok := false, fmin := 800, fmax := 1200, eqen := false, queues := List.replicate 16 .init,
    cmd := { cmd := 0, a0 := 0, a1 := 0, a2 := 0, status := 0 }, events := [], nevents := 0,
    remap := List.replicate 8 { v := false, pend := false, dnode := 0, addr := 0 }, revoked := [], childq := [],
    objs := [], stamps := [], halted := false, halting := false, swapTo := none, swapOut := [], swapBack := [], inval := none, contexts := [], eqx := [], eqxQ := [] }

/-- Management state at power-up (R418, R420, R424; limits log 2). -/
def Mgmt.init : Mgmt :=
  { status := 0, window := [], mnode := 0, hnode := 0, nodeWritten := false, power := 3000,
    temps := List.replicate 4 0, porten := 1, head := 0, lost := 0, ring := [],
    meas := List.replicate 8 (List.replicate 32 0), staged := List.replicate 32 0, throttled := [] }

/-- The module right after power-up (R418): the boot ROM waits for an image, and no partition, queue or gang exists. -/
def State.reset : State :=
  { now := 0, half := false, g := .idle, others := [], cohorts := [], launches := [], pairs := [], spad := [], spoison := [], mem := [],
    poison := [], tlb := [], ops := [], locks := [], nextOp := 0, nextId := 1, routers := [], slices := [],
    cxl := List.replicate 4 { q := [], last := 12, sent := [], failed := 0, rx := [] },
    ports := List.replicate 16 { q := [], last := 12, up := true, retx := 0, held := [], rx := [] },
    hubLast := List.replicate 8 23, parts := List.replicate 4 .init, mg := .init, tickAt := 0, replies := [], draws := 0, inputs := [] }

end Sys2Proof.Machine
end

