-- ==== Sys2Proof/Machine/Ops.lean ====
section
/-! DEFINITION. The named operations over memory and registers that every meaning shares: sparse memories, the two views of
scratchpad, results in flight and their landing, reading operands, range locks, taking a trap and returning from it, and the
issue of one instruction. -/
namespace Sys2Proof.Machine

open Sys2Proof

/-- What a step answers. -/
abbrev Answer := Host.Outcome State Fault Refusal

/-! ## Keyed lists -/

/-- The entry of a key, or d. -/
def assoc {α : Type} (l : List (Nat × α)) (k : Nat) (d : α) : α :=
  match l.find? (fun p => p.1 == k) with
  | some p => p.2
  | none => d

/-- The list with the entry of k set to x. -/
def assocSet {α : Type} : List (Nat × α) → Nat → α → List (Nat × α)
  | [], k, x => [(k, x)]
  | (j, y) :: l, k, x => if j = k then (k, x) :: l else (j, y) :: assocSet l k x

/-! ## Sparse memories -/

/-- The byte at address a; an unlisted address reads as 0 (R204, log 3). -/
def Memory.read : Memory → Nat → Byte
  | [], _ => 0
  | (b, x) :: m, a => if b = a then x else Memory.read m a

/-- One byte written: addresses stay strictly rising, and a byte that equals the unlisted value leaves the list. -/
def Memory.write : Memory → Nat → Byte → Memory
  | [], a, x => if x = 0 then [] else [(a, x)]
  | (b, y) :: m, a, x =>
    if b < a then (b, y) :: Memory.write m a x
    else if b = a then (if x = 0 then m else (a, x) :: m)
    else if x = 0 then (b, y) :: m else (a, x) :: (b, y) :: m

/-- n bytes from address a on. -/
def Memory.readN (m : Memory) (a n : Nat) : List Byte := (List.range n).map fun i => m.read (a + i)

/-- The entries of bytes that stand from address a on. -/
def cellsOf (a : Nat) : List Byte → Memory
  | [] => []
  | x :: xs => if x = 0 then cellsOf (a + 1) xs else (a, x) :: cellsOf (a + 1) xs

/-- Bytes written from address a on. -/
def Memory.writeN (m : Memory) (a : Nat) (bs : List Byte) : Memory :=
  m.filter (fun c => c.1 < a) ++ cellsOf a bs ++ m.filter (fun c => a + bs.length ≤ c.1)

/-- Every address of m is above a. -/
def Memory.above (a : Nat) (m : Memory) : Bool := m.all fun c => a < c.1

/-- The canonical form: addresses strictly rising and no entry equal to the unlisted value. -/
def Memory.wf : Memory → Bool
  | [] => true
  | (a, x) :: m => x != 0 && Memory.above a m && Memory.wf m

/-- The number of little-endian bytes (R5). -/
def leNat : List Byte → Nat
  | [] => 0
  | x :: xs => x.toNat + 256 * leNat xs

/-- n little-endian bytes of a number (R5). -/
def leBytes : Nat → Nat → List Byte
  | 0, _ => []
  | n + 1, x => BitVec.ofNat 8 x :: leBytes n (x / 256)

/-! ## The two views of scratchpad (R203) -/

/-- Linear address of lane offset o of lane l (R203). -/
def linOf (l o : Nat) : Nat := (o / 16) * 4096 + l * 16 + o % 16
/-- Lane of a linear address (R203). -/
def laneOf (a : Nat) : Nat := (a / 16) % 256
/-- Lane offset of a linear address (R203). -/
def offOf (a : Nat) : Nat := (a / 4096) * 16 + a % 16

/-! ## Parts of the state -/

/-- The cohort with this number. -/
def State.cohort (s : State) (id : Nat) : Cohort := (s.cohorts.find? fun c => c.id == id).getD .empty
/-- The cohort of the issuing gang. -/
def State.coh (s : State) : Cohort := s.cohort s.g.cohort
/-- The cohort list with one cohort changed. -/
def State.setCohort (s : State) (c : Cohort) : State :=
  { s with cohorts := s.cohorts.map fun d => if d.id == c.id then c else d }
/-- The module's pair n. -/
def State.pair (s : State) (n : Nat) : Pair := assoc s.pairs n .init
/-- The state with pair n set. -/
def State.setPair (s : State) (n : Nat) (p : Pair) : State := { s with pairs := assocSet s.pairs n p }
/-- The core cycle of the issuing gang's pair. -/
def State.cyc (s : State) : Nat := (s.pair s.coh.pair).cyc
/-- The scratchpad of the module's core c. -/
def State.pad (s : State) (c : Nat) : Memory := assoc s.spad c []
/-- The state with the scratchpad of core c set. -/
def State.setPad (s : State) (c : Nat) (m : Memory) : State := { s with spad := assocSet s.spad c m }
/-- Every gang of the machine; the one that issues comes first. -/
def State.gangs (s : State) : List Gang := s.g :: s.others
/-- The launch with this number. -/
def State.launch? (s : State) (id : Nat) : Option Launch := s.launches.find? fun l => l.id == id
/-- The module's core that a gang of pair p and core c within it issues on. -/
def coreOf (pair core : Nat) : Nat := 2 * pair + core

/-- Slot n of a gang. -/
def Gang.slot (g : Gang) (n : Nat) : Slot := if n = 0 then g.s0 else g.s1
/-- The gang with slot n set. -/
def Gang.setSlot (g : Gang) (n : Nat) (x : Slot) : Gang := if n = 0 then { g with s0 := x } else { g with s1 := x }
/-- The slot that issues. -/
def Gang.here (g : Gang) : Slot := g.slot g.cur
/-- The gang with its issuing slot set. -/
def Gang.setHere (g : Gang) (x : Slot) : Gang := g.setSlot g.cur x
/-- The thread whose accesses and results the slot that issues has (R213, R215, log 44). -/
def Gang.tag (g : Gang) : Nat := g.here.tid
/-- The state with the issuing slot set. -/
def State.setHere (s : State) (x : Slot) : State := { s with g := s.g.setHere x }

/-- Width i of the work identifier (R147). -/
def Kern.width (k : Kern) (i : Nat) : Nat := k.w.getD i 0
/-- Grid extents (R147). -/
def Gang.gx (g : Gang) : Nat := 2 ^ g.kn.width 0
def Gang.gy (g : Gang) : Nat := 2 ^ g.kn.width 1
/-- Physical extents and passes (R149). -/
def Gang.ex (g : Gang) : Nat := min g.gx 16
def Gang.ey (g : Gang) : Nat := min g.gy 16
def Gang.passes (g : Gang) : Nat := (g.gx / g.ex) * (g.gy / g.ey)
/-- Number of virtual lanes. -/
def Gang.size (g : Gang) : Nat := g.gx * g.gy
/-- Coordinates of virtual lane k (R148). -/
def Gang.kx (g : Gang) (k : Nat) : Nat := k % g.gx
def Gang.ky (g : Gang) (k : Nat) : Nat := k / g.gx
/-- Pass of virtual lane k (R149). -/
def Gang.pass (g : Gang) (k : Nat) : Nat := g.kx k / g.ex + (g.gx / g.ex) * (g.ky k / g.ey)
/-- Physical lane of virtual lane k (R149). -/
def Gang.phys (g : Gang) (k : Nat) : Nat := (g.ox + g.kx k % g.ex) + 16 * (g.oy + g.ky k % g.ey)
/-- The physical lanes the gang occupies, least first (R149). -/
def Gang.physLanes (g : Gang) : List Nat :=
  (List.range g.ey).flatMap fun y => (List.range g.ex).map fun x => (g.ox + x) + 16 * (g.oy + y)
/-- The quadrants the gang takes: its own, or all four of a ganged gang (R150). -/
def Gang.quads (g : Gang) : List Nat :=
  if g.ex ≤ 8 && g.ey ≤ 8 then [g.ox / 8 + 2 * (g.oy / 8)] else [0, 1, 2, 3]

/-- The lanes of a mask (R163), in lane order. -/
def Gang.lanesOf (g : Gang) (mask : Nat) : List Nat := (List.range g.size).filter fun k => mask.testBit k
/-- The active lanes of the issuing slot. -/
def Gang.active (g : Gang) : List Nat := g.lanesOf g.here.mask
/-- The mask of a list of lanes. -/
def maskOf (ks : List Nat) : Nat := ks.foldl (fun m k => m ||| 2 ^ k) 0

/-- Lane k. -/
def Gang.lane (g : Gang) (k : Nat) : Lane := g.lanes.getD k (Lane.init 0 0)

/-! ## Registers and results in flight (R32 to R37) -/

/-- Handler mode as a bank number (R23). -/
def Gang.bank (g : Gang) : Nat := if g.mode then 1 else 0

/-- SLACKDEF, GCTL and LATE after a write by `syswr` (R25, R102, R103). -/
def Gang.putSys (g : Gang) (n v : Nat) : Gang :=
  match n with
  | 1 => { g with chk := v.testBit 0, itemen := v.testBit 1, lateen := v.testBit 2 }
  | 2 => if v % 16 = 0 || v % 16 = 15 then g else { g with slackdef := v % 16 }
  | 3 => { g with late := v % 2 ^ 32 }
  | _ => g

/-- The lane with bit n of p set to x; p0 stays true (R21). -/
def Lane.putP (l : Lane) (n : Nat) (x : Bool) : Lane :=
  if n = 0 then l
  else { l with p := if x then l.p ||| BitVec.ofNat 16 (2 ^ n) else l.p &&& ~~~(BitVec.ofNat 16 (2 ^ n)) }

/-- Where l0 of a bank and slot lies in a lane's l list. -/
def lIdx (bank slot : Nat) : Nat := 4 * bank + 2 * slot

/-- A lane changed. -/
def Gang.modLane (g : Gang) (k : Nat) (f : Lane → Lane) : Gang := { g with lanes := g.lanes.modify k f }

/-- A register takes a value; an l target shifts its file (R22). bc is not the gang's (R192). -/
def Gang.put (g : Gang) (t : Tgt) (v : Nat) : Gang :=
  match t with
  | .v k n => g.modLane k fun l => { l with v := l.v.set n (BitVec.ofNat 32 v) }
  | .s n => { g with s := g.s.set n (BitVec.ofNat 64 v) }
  | .p k n => g.modLane k fun l => l.putP n (v != 0)
  | .o k b n => g.modLane k fun l =>
      if b = 0 then { l with o := l.o.set n (BitVec.ofNat 32 v) } else { l with oh := l.oh.set n (BitVec.ofNat 32 v) }
  | .l k b i => g.modLane k fun l =>
      { l with l := (l.l.set (lIdx b i + 1) (l.l.getD (lIdx b i) 0)).set (lIdx b i) (BitVec.ofNat 64 v) }
  | .m n => { g with m := g.m.set n (BitVec.ofNat 256 v) }
  | .k n => { g with k := g.k.set n (BitVec.ofNat 64 v) }
  | .sys n => g.putSys n v
  | .bc _ => g

/-- What a register holds now; for an l target, l0. -/
def Gang.raw (g : Gang) (t : Tgt) : Nat :=
  match t with
  | .v k n => ((g.lane k).v.getD n 0).toNat
  | .s n => (g.s.getD n 0).toNat
  | .p k n => if n = 0 then 1 else ((g.lane k).p.toNat >>> n) % 2
  | .o k b n => ((if b = 0 then (g.lane k).o else (g.lane k).oh).getD n 0).toNat
  | .l k b i => ((g.lane k).l.getD (lIdx b i) 0).toNat
  | .m n => (g.m.getD n 0).toNat
  | .k n => (g.k.getD n 0).toNat
  | _ => 0

/-- The pendings with one more, in order of landing; among equal cycles in order of issue (R33). -/
def addPend : List Pend → Pend → List Pend
  | [], x => [x]
  | y :: ys, x => if x.due < y.due then x :: y :: ys else y :: addPend ys x

/-- The gang with results in flight added. -/
def Gang.addPends (g : Gang) (ps : List Pend) : Gang := { g with pend := ps.foldl addPend g.pend }

/-- What a result of value v leaves in a register that holds old (R157). -/
def Pend.over (p : Pend) (v old : Nat) : Nat := v ||| (old &&& p.keepBits)

/-- What a v, p, s or o register holds at cycle c: results due by then laid over what it holds now (R32, R33). -/
def Gang.holdAt (g : Gang) (c : Nat) (t : Tgt) : Nat :=
  g.pend.foldl (fun x p => if p.tgt == t && p.due ≤ c then p.over p.val x else x) (g.raw t)

/-- The value of a result; the one it keeps is that of registers at a cycle, the first lowest (R22). -/
def Gang.pendVal (g : Gang) (p : Pend) : Nat :=
  match p.keep with
  | none => p.val
  | some (c, ts) => ts.zipIdx.foldl (fun a x => a + g.holdAt c x.1 * 2 ^ (32 * x.2)) 0

/-- A result lands in its register. -/
def Gang.landPend (g : Gang) (p : Pend) : Gang := g.put p.tgt (p.over (g.pendVal p) (g.raw p.tgt))

/-- A kept value is fixed once its cycle has come (R22). -/
def Gang.fixKept (g : Gang) (t : Nat) (p : Pend) : Pend :=
  match p.keep with
  | none => p
  | some (c, _) => if c ≤ t then { p with val := g.pendVal p, keep := none } else p

/-- The register results due at cycle t land. -/
def landRegs (t : Nat) : List Pend → Gang → Gang
  | [], g => { g with pend := [] }
  | p :: ps, g =>
    if p.due ≤ t then landRegs t ps ({ g with pend := ps }.landPend p)
    else { g with pend := (p :: ps).map (({ g with pend := p :: ps } : Gang).fixKept t) }

/-- The values that a target takes by cycle c, what it holds now first, and those it takes after that, each in order of landing. -/
def Gang.landedOf (g : Gang) (c : Nat) (t : Tgt) : List Nat :=
  (g.pend.filter fun p => p.tgt == t && p.due ≤ c).foldl
    (fun xs p => xs ++ [p.over (g.pendVal p) (xs.getLastD 0)]) [g.raw t]
def Gang.flightOf (g : Gang) (c : Nat) (t : Tgt) : List Nat :=
  ((g.pend.filter fun p => p.tgt == t && c < p.due).foldl
    (fun xs p => xs ++ [p.over (g.pendVal p) (xs.getLastD 0)]) [(g.landedOf c t).getLastD 0]).tail

/-- A register's number among the free choices of one lane: its operand code, windows and masks after them. -/
def Tgt.code : Tgt → Nat
  | .v _ n => n
  | .s n => 256 + n
  | .p _ n => 320 + n
  | .o _ _ n => 336 + n
  | .l _ _ _ => 344
  | .k n => 400 + n
  | .m n => 410 + n
  | .sys n => 420 + n % 16
  | .bc n => 440 + n

/-- The number of a free choice of one issue for lane k: i is a register's code, or a number from 460 on for another choice. A register that
several fields name is read once in a lane (R37). -/
def drawIdx (k i : Nat) : Nat := 512 * k + i

/-- One of the values a read may give: the only one, or a free choice (R37, log 4). -/
def pick (draws idx : Nat) (x : Nat) : List Nat → Nat
  | [] => x
  | xs => (x :: xs).getD (Config.free draws idx % (xs.length + 1)) x

/-- A register as lane k reads it at cycle c: its value, or while a write is in flight the old or the new one (R37). -/
def Gang.seen (g : Gang) (draws c k : Nat) (t : Tgt) : Nat :=
  pick draws (drawIdx k t.code) ((g.landedOf c t).getLastD 0) (g.flightOf c t)

/-- l1 as read at cycle c (R22, R37). -/
def Gang.seenL1 (g : Gang) (draws c k b i : Nat) : Nat :=
  let hist := ((g.lane k).l.getD (lIdx b i + 1) 0).toNat :: g.landedOf c (.l k b i)
  let fl := g.flightOf c (.l k b i)
  let n := hist.length
  pick draws (drawIdx k 345) (hist.getD (n - 2) 0) (if fl.isEmpty then [] else hist.getD (n - 1) 0 :: fl.dropLast)

/-- Whether a write to the target is still in flight at cycle c (R37). -/
def Gang.early (g : Gang) (c : Nat) (t : Tgt) : Bool := g.pend.any fun p => p.tgt == t && c < p.due

/-- The cycle by which every register result in flight has landed. -/
def Gang.lastDue (g : Gang) (t : Nat) : Nat := g.pend.foldl (fun m p => max m p.due) t

/-! ## Scratchpad effects in flight (R28, R29, R228, R231, R238) -/

/-- Integer or float atomic by AOP (R57, R230): the new value. -/
def aopNew (aop old opd exp : Nat) : Nat :=
  let f32 := Ty.f32.fmt
  match aop with
  | 0 => (old + opd) % 2 ^ 32
  | 1 => (old + opd) % 2 ^ 64
  | 2 => if toInt true 32 opd < toInt true 32 old then opd else old
  | 3 => if opd < old then opd else old
  | 4 => if toInt true 32 old < toInt true 32 opd then opd else old
  | 5 => if old < opd then opd else old
  | 6 => roundFV f32 0 false (FV.add 0 (f32.val old) (f32.val opd)) 0
  | 7 => fminmax f32 false false old opd
  | 8 => fminmax f32 true false old opd
  | 9 => old &&& opd
  | 10 => old ||| opd
  | 11 => old ^^^ opd
  | 12 | 13 => opd
  | _ => if old = exp then opd else old

/-- Width in bytes of an AOP (R57). -/
def aopBytes (aop : Nat) : Nat := (aopTy aop).width / 8

/-- A barrier object read from 16 bytes (R221). -/
structure Barr where
  expected : Nat
  remaining : Nat
  pending : Nat
  control : Nat
  deriving DecidableEq, Repr

/-- The words of a barrier object (R221). -/
def Barr.ofBytes (bs : List Byte) : Barr :=
  { expected := leNat (bs.take 4), remaining := leNat ((bs.drop 4).take 4), pending := leNat ((bs.drop 8).take 4),
    control := leNat ((bs.drop 12).take 4) }
/-- The bytes of a barrier object (R221). -/
def Barr.bytes (b : Barr) : List Byte :=
  leBytes 4 b.expected ++ leBytes 4 b.remaining ++ leBytes 4 b.pending ++ leBytes 4 b.control
/-- GEN (R235). -/
def Barr.gen (b : Barr) : Nat := bits b.control 16 16
/-- The control word with reserved bits zero (R235). -/
def Barr.clean (b : Barr) : Barr := { b with control := b.gen * 2 ^ 16 + b.control % 4 }
/-- The control word with DP set (R235). -/
def Barr.drop (b : Barr) : Barr := { b with control := b.gen * 2 ^ 16 + 2 + b.control % 2 }
/-- The phase test of R236. -/
def Barr.test (b : Barr) : Barr :=
  if b.remaining = 0 && b.pending = 0 then
    { b with remaining := b.expected, control := ((b.gen + 1) % 2 ^ 16) * 2 ^ 16 + (1 - b.control % 2) }
  else b
/-- The condition word of an object (R239). -/
def Barr.cond (b : Barr) (a : Nat) : Nat := 0x80 * 2 ^ 56 + b.gen * 2 ^ 32 + a % 2 ^ 22

/-- `bini` (R237). -/
def Barr.init (c : Nat) : Barr := { expected := c, remaining := c, pending := 0, control := 0 }
/-- `barv` as applied: a count at 0 stays at 0 (R234, R237). -/
def Barr.arrive (b : Barr) : Barr := ({ b.clean with remaining := b.remaining - 1 } : Barr).test
/-- `bdrop` as applied (R234, R237). -/
def Barr.dropOne (b : Barr) : Barr :=
  ({ b.clean.drop with remaining := b.remaining - 1, expected := b.expected - 1 } : Barr).test
/-- A drop at exit after an arrival in the phase (R238). -/
def Barr.dropArrived (b : Barr) : Barr := ({ b.clean.drop with expected := b.expected - 1 } : Barr).test
/-- `bexp`, and an engine's subtraction as a negative count (R236, R237). -/
def Barr.expect (b : Barr) (c : Nat) : Barr := ({ b.clean with pending := (b.pending + c) % 2 ^ 32 } : Barr).test

/-- The drop of a gang that exits: with an arrival in this phase, as its kept GEN shows, or as a `bdrop` (R238). -/
def Barr.leave (b : Barr) (gen : Option Nat) : Barr := if gen = some b.gen then b.dropArrived else b.dropOne

/-- Whether an effect touches one of the bytes. -/
def Fx.meets (x : Fx) (core addr len : Nat) : Bool := x.core = core && x.addr < addr + len && addr < x.addr + x.len

/-- Whether an effect is an RMW. -/
def Fx.isRmw (x : Fx) : Bool := match x.op with | .store _ => false | _ => true

/-- The bytes an effect leaves, and what it returns to a register. -/
def Fx.result (x : Fx) (old : List Byte) : List Byte × Option (Tgt × Nat) :=
  let b := Barr.ofBytes old
  match x.op with
  | .store bs => (bs, none)
  | .atom aop opd exp lane d =>
    let o := leNat old
    (leBytes x.len (aopNew aop o opd.toNat exp.toNat), some (.v lane d, o))
  | .bini c => ((Barr.init c.toNat).bytes, none)
  | .barv a d => (b.arrive.bytes, d.map fun n => (.s n, b.cond a))
  | .bdrop a d => (b.dropOne.bytes, d.map fun n => (.s n, b.cond a))
  | .bexp c => ((b.expect c.toNat).bytes, none)
  | .bleave gen => ((b.leave gen).bytes, none)

/-- An RMW's results in flight take the value the RMW read (R230, R237), those of a load the value loaded; a value fills as many registers as it
has. -/
def fixPend (ps : List Pend) (rmw : Nat) (r : Option (Tgt × Nat)) : List Pend :=
  match r with
  | none => ps
  | some (t, v) =>
    if rmw = 0 then ps
    else ps.map fun p =>
      if p.rmw = rmw then
        match t, p.tgt with
        | .v k n, .v k' n' => if k = k' then { p with val := v / 2 ^ (32 * (n' - n)) % 2 ^ 32 } else p
        | .v k _, .l k' _ _ => if k = k' then { p with val := v } else p
        | .o k _ _, .o k' _ _ => if k = k' then { p with val := v } else p
        | .o k _ _, .l k' _ _ => if k = k' then { p with val := v } else p
        | .s n, .s n' => if n = n' then { p with val := v } else p
        | _, _ => p
      else p

/-- SD, the lane offsets of the divergence stacks (R204). -/
def Kern.stackBytes (k : Kern) : Nat := (2 ^ k.width 2 * 16 * k.divd + 255) / 256 * 256

/-- s50, the linear address of the program's part for a view base (R204). -/
def Kern.s50 (k : Kern) (cb : Nat) : Nat := (cb + 256 + k.stackBytes) * 256

/-- The gang with the GEN kept of the launch barrier at its own core's linear address a (R238, log 11). -/
def Gang.keepBar (g : Gang) (cb a gen : Nat) (drop : Bool) : Gang :=
  { g with bars := g.bars.zipIdx.map fun p =>
      match g.kn.bars[p.2]? with
      | some (off, _) => if g.kn.s50 cb + off = a then { gen := gen, valid := true, dropped := p.1.dropped || drop } else p.1
      | none => p.1 }

/-- What the gang keeps of an arrival or drop that applies (R238). -/
def State.keepBars (s : State) (x : Fx) (old : List Byte) : Gang :=
  match x.op with
  | .barv a _ => s.g.keepBar s.coh.cb a (Barr.ofBytes old).gen false
  | .bdrop a _ => s.g.keepBar s.coh.cb a (Barr.ofBytes old).gen true
  | _ => s.g

/-- The physical linear address of launch barrier i of a kernel in a cohort (R204, R377). -/
def Kern.barAt (k : Kern) (c : Cohort) (i : Nat) : Nat :=
  let a := k.s50 c.cb + (k.bars.getD i (0, 0)).1
  linOf (laneOf a) (offOf a + c.pb - c.cb)

/-- One arrival or phase change of a launch barrier in the counts of Equinox: in a phase with arrivals from several pairs the last one counts, and
with the fourth in succession a change is settled and its count restarts (R360). A phase in which Equinox takes no part breaks the succession
(log 49). -/
def EqxRec.note (r : EqxRec) (pair now : Nat) (arrives changed : Bool) : EqxRec × Option EqxChange :=
  let as := if arrives then assocSet r.arrivals pair now else r.arrivals
  if !changed then ({ r with arrivals := as }, none)
  else if as.length < 2 then ({ r with arrivals := [], lastPair := none, runs := 0 }, none)
  else
    let last := as.foldl (fun m a => if m.2 ≤ a.2 then a else m) (as.headD (0, 0))
    let first := as.foldl (fun m a => if a.2 < m.2 then a else m) (as.headD (0, 0))
    let runs := if r.lastPair = some last.1 then r.runs + 1 else 1
    let r := { r with arrivals := [], lastPair := some last.1 }
    if runs ≥ 4 then ({ r with runs := 0 }, some { gains := last.1, loses := first.1, at_ := now }) else ({ r with runs := runs }, none)

/-- What Equinox records of an RMW on the object at a physical linear address of a core (R360). -/
def State.eqxNote (s : State) (c : Cohort) (k : Kern) (core pa : Nat) (arrives changed : Bool) : State :=
  match (s.launch? c.launch).bind fun l => (s.parts[l.part]?).map fun p => (l.part, p) with
  | none => s
  | some (n, p) =>
    if !p.eqen then s
    else match (List.range k.bars.length).find? fun i => k.barAt c i = pa with
      | none => s
      | some i =>
        let b := i + 16 * (core % 2)
        let mine (r : EqxRec) : Bool := r.cohort = c.id && r.bar = b
        let fresh : EqxRec := { cohort := c.id, bar := b, arrivals := [], lastPair := none, runs := 0 }
        let rs := if p.eqx.any mine then p.eqx else p.eqx ++ [fresh]
        let note (r : EqxRec) := r.note c.pair s.now arrives changed
        { s with parts := s.parts.set n { p with
            eqx := rs.map fun r => if mine r then (note r).1 else r
            eqxQ := p.eqxQ ++ (rs.filter mine).filterMap fun r => (note r).2 } }

/-- Whether an effect is an RMW on a barrier object whose GEN is gen before it, and whether it arrives there: the drop of a gang that has
arrived in this phase already is no arrival (R238, R360). -/
def FxOp.barrier (gen : Nat) : FxOp → Option Bool
  | .barv _ _ => some true
  | .bdrop _ _ => some true
  | .bleave kept => some (kept != some gen)
  | .bexp _ => some false
  | _ => none

/-- Whether an effect is an instruction's or an exit's RMW on a barrier object (R237, R238). -/
def FxOp.onBarrier : FxOp → Bool
  | .store _ | .atom _ _ _ _ _ => false
  | _ => true

/-! ### The place of an effect in the coherence order (R213)

An RMW reads and writes its bytes when it is applied. Where the result of an atomic has to be known before that (an own later read, R231; a
result that lands at its latency while a `.rel` part or an earlier lane holds the RMW back), its place in the coherence order is fixed then:
`old` holds the bytes that it reads. It is still seen by others only once it is applied; a write of another agent that comes first there is
later in the coherence order and stays, and an RMW of another agent that comes first reads what it leaves and is applied after it.

A barrier RMW is never fixed for that: its slot sees it laid over the object as it stands, its sD takes the GEN of the object as it stands at
its latency, and it is applied to the object as it stands when it is applied (R234, R238, log 32). -/

/-- Bytes written from address a on, but for those at dead addresses. -/
def writeLive (m : Memory) (a : Nat) (bs : List Byte) (dead : List Nat) : Memory :=
  if dead.isEmpty then m.writeN a bs
  else bs.zipIdx.foldl (fun m p => if dead.contains (a + p.2) then m else m.write (a + p.2) p.1) m

/-- What an effect reads of a memory: the bytes it has been fixed to, or those that stand there. -/
def Fx.reads (x : Fx) (m : Memory) : List Byte := x.old.getD (m.readN x.addr x.len)

/-- A memory of the effect's core with the effect laid over it. -/
def Fx.over (x : Fx) (m : Memory) : Memory := writeLive m x.addr (x.result (x.reads m)).1 x.dead

/-- The opcode of the instruction that issued an operation. -/
def Op.opc (o : Op) : Nat := bits o.word.toNat 56 8
/-- Fields C and MINOR of that instruction's word. -/
def Op.cfield (o : Op) : Nat := bits o.word.toNat 10 9
def Op.esub (o : Op) : Nat := bits o.word.toNat 0 6

/-- AOP and RED of `gatom` (R244). -/
def gatomAop (c : Nat) : Nat := c % 16
def gatomRed (c : Nat) : Bool := c.testBit 4

/-- Whether an item still has to reach its home slice. -/
def Item.away (i : Item) : Bool := i.st = .todo || i.st = .sent

/-- Whether a single access is performed before it completes (R233, R247): a `gst` or a reduction once its home slice has applied it; a
watch that its slice has accepted counts as performed (R429). A `gatom` without RED reads, and is performed when it completes (log 47). -/
def Op.performed (o : Op) : Bool :=
  (o.opc = 0xD1 || (o.opc = 0xD2 && gatomRed o.cfield) || o.opc = 0xD3) && o.items.all fun i => !i.away

/-- Whether an operation is in flight and not performed. -/
def State.opOpen (s : State) (id : Nat) : Bool := s.ops.any fun o => o.id == id && !o.performed

/-- An effect put in its place among fixed ones. -/
def insertOrd (x : Fx) : List Fx → List Fx
  | [] => [x]
  | y :: ys => if x.ord ≤ y.ord then x :: y :: ys else y :: insertOrd x ys

/-- The fixed effects of every gang, in their order. -/
def State.fixedFx (s : State) : List Fx :=
  (s.gangs.flatMap fun g => g.fx.filter fun x => x.old.isSome).foldr insertOrd []

/-- Whether a fixed effect still has to leave one of the bytes. -/
def Fx.hides (x : Fx) (core addr len : Nat) : Bool :=
  x.old.isSome && x.meets core addr len &&
  (List.range x.len).any fun i => addr ≤ x.addr + i && x.addr + i < addr + len && !(x.dead.contains (x.addr + i))

/-- Effects of a gang with a mark for those whose place is to be fixed: those hit, and each earlier one of the same slot that meets one of
them. -/
def marked (hit : Fx → Bool) : List Fx → List (Fx × Bool)
  | [] => []
  | x :: xs =>
    let r := marked hit xs
    (x, hit x || r.any fun y => y.2 && y.1.slot = x.slot && y.1.meets x.core x.addr x.len) :: r

/-- The place of effect number i of the issuing gang is fixed: after the writes applied and the effects fixed so far. -/
def State.fixAt (s : State) (i : Nat) : State :=
  match s.g.fx[i]? with
  | none => s
  | some x =>
    if x.old.isSome then s
    else
      let fixed := s.fixedFx
      let m := (fixed.filter fun y => y.core = x.core).foldl (fun m y => y.over m) (s.pad x.core)
      let old := m.readN x.addr x.len
      let x' := { x with old := some old, ord := fixed.foldl (fun n y => max n (y.ord + 1)) 1 }
      { s with g := { s.g with fx := s.g.fx.set i x', pend := fixPend s.g.pend x.num (x.result old).2 } }

/-- The places of the effects that are hit are fixed, with those of their slots that come first. -/
def State.fixFx (s : State) (hit : Fx → Bool) : State :=
  if s.g.fx.any fun x => x.old.isNone && hit x then
    ((marked hit s.g.fx).zipIdx.filter fun p => p.1.2).foldl (fun s p => s.fixAt p.2) s
  else s

/-- A gang whose fixed effects do not leave the bytes: a write later in the coherence order has left them (R213). before: the place of
that write among the fixed effects, none after all of them. -/
def Gang.trim (g : Gang) (core : Nat) (as : List Nat) (before : Option Nat) : Gang :=
  { g with fx := g.fx.map fun y =>
      if y.old.isSome && y.core = core && (before.all fun n => y.ord < n)
      then { y with dead := y.dead ++ as.filter fun a => y.addr ≤ a && a < y.addr + y.len } else y }

/-- The result of barrier RMW number i of the issuing gang, from the object as its slot now sees it (log 32). -/
def State.barResult (s : State) (i : Nat) : State :=
  match s.g.fx[i]? with
  | none => s
  | some x =>
    let m := ((s.g.fx.take i).filter fun y => y.slot = x.slot && y.core = x.core).foldl (fun m y => y.over m) (s.pad x.core)
    { s with g := { s.g with fx := s.g.fx.set i { x with ret := 0 }, pend := fixPend s.g.pend x.num (x.result (m.readN x.addr x.len)).2 } }

/-- The results of the issuing gang's RMWs that are hit and not known yet are fixed: an atomic's place, and what a barrier RMW returns. -/
def State.fixResults (s : State) (hit : Fx → Bool) : State :=
  let s := s.fixFx fun x => !x.op.onBarrier && hit x
  if s.g.fx.any fun x => x.ret != 0 && x.op.onBarrier && x.old.isNone && hit x then
    (s.g.fx.zipIdx.filter fun p => p.1.ret != 0 && p.1.op.onBarrier && p.1.old.isNone && hit p.1).foldl (fun s p => s.barResult p.2) s
  else s

/-- The state after a write at these addresses of a core that comes later than the fixed effects. -/
def State.trim (s : State) (core : Nat) (as : List Nat) (before : Option Nat := none) : State :=
  if s.gangs.any fun g => g.fx.any fun y => y.old.isSome
  then { s with g := s.g.trim core as before, others := s.others.map fun g => g.trim core as before } else s

/-- Bytes written to a core's scratchpad at physical linear addresses, later than every effect applied or fixed; a word that is written whole
loses its poison (R211). -/
def State.poke (s : State) (core : Nat) (xs : List (Nat × Byte)) : State :=
  let as := xs.map (·.1)
  let s := s.setPad core (xs.foldl (fun m p => m.write p.1 p.2) (s.pad core))
  ({ s with spoison := if s.spoison.isEmpty then [] else s.spoison.filter fun p =>
      !(p.1 = core && (List.range 4).all fun j => as.contains (p.2 + j)) } : State).trim core as

/-- One effect applied to the scratchpads and the gang's results. -/
def applyFx (s : State) (x : Fx) : State :=
  let old := x.reads (s.pad x.core)
  let (bs, r) := x.result old
  let s := { s with g := s.keepBars x old }
  let s := match x.op.barrier (Barr.ofBytes old).gen with
    | some a => s.eqxNote s.coh s.g.kn x.core x.addr a ((Barr.ofBytes bs).gen != (Barr.ofBytes old).gen)
    | none => s
  let s := s.setPad x.core (x.over (s.pad x.core))
  let s := s.trim x.core ((List.range x.len).map (x.addr + ·)) (if x.old.isSome then some x.ord else none)
  { s with g := { s.g with pend := if x.old.isSome || x.ret = 0 then s.g.pend else fixPend s.g.pend x.num r }
           spoison := s.spoison.filter fun p => !(p.1 = x.core && x.addr ≤ p.2 && p.2 + 4 ≤ x.addr + x.len) }

/-- What effect number i of the issuing gang still waits for (R213, R231): operations, earlier effects of its slot on its bytes or, with a
`.rel` part, all of them, and an effect fixed before it that still has to leave one of its bytes. -/
def State.fxWaits (s : State) (i : Nat) (x : Fx) : Bool :=
  x.deps.any s.opOpen ||
  (s.g.fx.take i).any (fun y => y.slot = x.slot && y.meets x.core x.addr x.len) ||
  (x.rel && s.g.fx.any fun y => y.slot = x.slot && y.num < x.num) ||
  ((x.isRmw || x.old.isSome) && s.gangs.any fun g => g.fx.any fun y =>
    y.hides x.core x.addr x.len && (x.old.isNone || y.ord < x.ord))

/-- The effects due at cycle t apply in order, but for those that wait; n bounds how many are looked at, from number i on. -/
def landFxGo (t : Nat) : Nat → Nat → State → State
  | 0, _, s => s
  | n + 1, i, s =>
    match s.g.fx[i]? with
    | none => s
    | some x =>
      if t < x.due then s
      else if s.fxWaits i x then landFxGo t n (i + 1) s
      else landFxGo t n i (applyFx { s with g := { s.g with fx := s.g.fx.eraseIdx i } } x)

/-- Writes of bc registers due at cycle t reach the cohort (R192). A configuration of 256 lanes is one number in base 256. -/
def landBc (t : Nat) (s : State) : State :=
  s.g.pend.foldl (fun s p =>
    match p.tgt with
    | .bc n => if p.due ≤ t then
        let c := s.coh
        s.setCohort { c with bc := c.bc.set n ((leBytes 256 p.val).map (·.toNat)) } else s
    | _ => s) s

/-- Everything of the issuing gang that is due by its pair's cycle has landed; an RMW whose result lands before it applies has its result
fixed. -/
def State.land (s : State) : State :=
  let t := s.cyc
  let s := if s.g.fx.isEmpty then s
    else (landFxGo t s.g.fx.length 0 s).fixResults fun x => x.ret != 0 && x.ret ≤ t
  if s.g.pend.isEmpty then s
  else
    let s := landBc t s
    { s with g := landRegs t s.g.pend { s.g with pend := [] } }

/-- An effect enters the list in order of its cycle; it never overtakes an earlier one of its slot on the same bytes. -/
def addFx (xs : List Fx) (x : Fx) : List Fx :=
  let due := xs.foldl (fun d y => if y.slot = x.slot && y.meets x.core x.addr x.len then max d y.due else d) x.due
  let before := xs.filter fun y => y.due ≤ due
  let after := xs.filter fun y => !(y.due ≤ due)
  before ++ [{ x with due := due }] ++ after

/-- The state with effects added in order. -/
def State.addFxs (s : State) (xs : List Fx) : State := { s with g := { s.g with fx := xs.foldl addFx s.g.fx } }

/-- Bytes of scratchpad: core, linear address, length. -/
abbrev Span := Nat × Nat × Nat

/-- Before the issuing slot reads these bytes, the places of its own atomics in flight on them are fixed (R231). -/
def State.settle (s : State) (xs : List Span) : State :=
  s.fixFx fun x => x.slot = s.g.tag && x.isRmw && !x.op.onBarrier && xs.any fun p => x.meets p.1 p.2.1 p.2.2

/-- The scratchpads as the issuing slot sees them, its own effects in flight laid over them in order (R28, R115, R175, R231). -/
def State.asSeen (s : State) : State :=
  { s with
    spad := (s.g.fx.filter fun x => x.slot = s.g.tag).foldl (fun m x => assocSet m x.core (x.over (assoc m x.core []))) s.spad }

/-- Bytes of scratchpad. -/
def State.padRead (s : State) (p : Span) : List Byte := (s.pad p.1).readN p.2.1 p.2.2

/-- Bytes as the issuing slot sees them. -/
def State.slotRead (s : State) (p : Span) : List Byte := s.asSeen.padRead p

/-- A loaded value as D receives it: 1- and 2-byte types extend to 32 bits (R141). -/
def loadExt (t : Ty) (x : Nat) : Nat := if t.width < 32 then ofInt 32 (toInt t.signed t.width x) else x

/-- One read of a later pass is made: it sees what its slot has in flight laid over the scratchpads (R28, R151). -/
def State.load (s : State) (x : Load) : State :=
  let m := (s.g.fx.filter fun y => y.slot = x.slot && y.core = x.core).foldl (fun m y => y.over m) (s.pad x.core)
  { s with g := { s.g with pend := fixPend s.g.pend x.num (some (x.tgt, loadExt x.ty (leNat (m.readN x.addr x.len)))) } }

/-- The reads of later passes of the issuing gang that are made now. -/
def State.loadIf (s : State) (now : Load → Bool) : State :=
  let s' := (s.g.loads.filter now).foldl State.load s
  { s' with g := { s'.g with loads := s'.g.loads.filter fun x => !(now x) } }

/-! ## Bounds, relocation and range locks (R27, R204, R258 to R260, R377) -/

/-- Whether lane offsets o to o + n - 1 lie in the cohort's allocation (R205). -/
def Cohort.inside (c : Cohort) (o n : Nat) : Bool := c.cb ≤ o && o + n ≤ c.cb + c.cs && o + n ≤ 8192

/-- The physical lane offset of a view offset (R377). -/
def Cohort.reloc (c : Cohort) (o : Nat) : Nat := o + c.pb - c.cb

/-- Whether a lock covers lane offsets o to o + n - 1 of a lane of a core (R258). -/
def Lock.covers (x : Lock) (core lane o n : Nat) : Bool :=
  x.core = core && match x.range with
    | .lanes ls lo hi => ls.contains lane && lo < o + n && o ≤ hi
    | .blocks _ _ => false

/-- ENG in <15:8> and TAG in <7:0> of the earliest registered lock in force that one of the accesses meets: core, lane, lane offset, length
and whether it writes (R260). -/
def State.lockHit (s : State) (xs : List (Nat × Nat × Nat × Nat × Bool)) : Option Nat :=
  match s.locks.find? fun x => x.since ≤ (s.pair (x.core / 2)).cyc &&
      xs.any fun a => (a.2.2.2.2 || x.dst) && x.covers a.1 a.2.1 a.2.2.1 a.2.2.2.1 with
  | none => none
  | some x => match s.ops.find? fun p => p.id == x.op with
    | some p => some (p.eng * 256 + p.tag)
    | none => some 0

/-- Whether some byte of a range of a core is poisoned (R211). -/
def State.padPoison (s : State) (core addr len : Nat) : Bool :=
  s.spoison.any fun p => p.1 = core && p.2 < addr + len && addr < p.2 + 4

/-- Whether the issuing slot finds a range poisoned: a word that a store of its own in flight covers whole holds that store's bytes for it (R28,
R211, log 31). -/
def State.slotPoison (s : State) (core addr len : Nat) : Bool :=
  s.spoison.any fun p => p.1 = core && p.2 < addr + len && addr < p.2 + 4 &&
    !(s.g.fx.any fun x => x.slot = s.g.tag && x.core = core && !x.isRmw && x.addr ≤ p.2 && p.2 + 4 ≤ x.addr + x.len)

/-- One access of a lane: its number, view lane and lane offset, the core it names, and whether its address is misaligned or
lies outside by its number alone. -/
structure Acc where
  k : Nat
  core : Nat
  lane : Nat
  off : Nat
  mis : Bool
  out : Bool
  deriving DecidableEq, Repr

/-- The physical linear address of an access (R203, R377). -/
def Acc.addr (c : Cohort) (x : Acc) : Nat := linOf x.lane (c.reloc x.off)

/-- What an access does to its bytes (R260). -/
inductive AccKind
  | read | write | rmw
  deriving DecidableEq, Repr

/-- The checks of R27, R114 and R227 over the accesses of an instruction, then POISON where the bytes are read (R211). Details are the
accesses' k: lane numbers, and the field number in a barrier's access; 0 when byLane is false. -/
def State.checkAccs (s : State) (xs : List Acc) (n : Nat) (kind : AccKind) (byLane : Bool) : Except Flt Unit :=
  let c := s.coh
  let det (x : Acc) : Nat := if byLane then x.k else 0
  match xs.find? (·.mis) with
  | some x => .error ⟨.misaligned, det x, 0⟩
  | none =>
    match xs.find? fun x => x.out || !(c.inside x.off n) with
    | some x => .error ⟨.scratchBounds, det x, 0⟩
    | none =>
      match s.lockHit (xs.map fun x => (x.core, x.lane, c.reloc x.off, n, kind != .read)) with
      | some e => .error ⟨.rangeBusy, e, 0⟩
      | none =>
        if kind = .write then .ok ()
        else match xs.find? fun x => s.slotPoison x.core (x.addr c) n with
          | some x => .error ⟨.poison, det x, 0⟩
          | none => .ok ()

/-- The bytes of an access. -/
def Acc.span (c : Cohort) (n : Nat) (x : Acc) : Span := (x.core, x.addr c, n)

/-- The access of lane k at a lane-view address (R27). -/
def State.viewAcc (s : State) (k a n : Nat) : Acc :=
  { k := k, core := coreOf s.coh.pair s.g.core, lane := s.g.phys k, off := a, mis := a % n != 0, out := a ≥ 8192 }

/-- The access at a linear address of the pair (R114, R203). -/
def State.linAcc (s : State) (k a n : Nat) : Acc :=
  let other := (a / 2 ^ 21) % 2
  { k := k, core := coreOf s.coh.pair ((s.g.core + other) % 2), lane := laneOf (a % 2 ^ 21), off := offOf (a % 2 ^ 21),
    mis := a % n != 0, out := a ≥ 2 ^ 22 }

/-! ## Guards -/

/-- The cycle at which lane k of a lane instruction reads its sources (R151). -/
def State.laneCyc (s : State) (k : Nat) : Nat := s.cyc + s.g.pass k

/-- Whether a guard read at cycle c is true in lane k (R45). -/
def State.guardAt (s : State) (h : Hdr) (c k : Nat) : Bool :=
  if h.g = 0 then true else (s.g.seen s.draws c k (.p k h.g.toNat) != 0) != h.n

/-- The guard of an instruction that issues once (R151, R173, R191, R197), and that of a lane instruction, which pass j reads at t + j. -/
def State.guard (s : State) (h : Hdr) (k : Nat) : Bool := s.guardAt h s.cyc k
def State.lguard (s : State) (h : Hdr) (k : Nat) : Bool := s.guardAt h (s.laneCyc k) k

/-- The active lanes whose guard is true, for both kinds. -/
def State.performing (s : State) (h : Hdr) : List Nat := s.g.active.filter fun k => s.guard h k
def State.lperforming (s : State) (h : Hdr) : List Nat := s.g.active.filter fun k => s.lguard h k

/-- A gang-uniform instruction acts (R89). -/
def State.acts (s : State) (h : Hdr) : Bool := s.g.active.any fun k => s.guard h k

/-- Instructions that act lane by lane and issue one pass a cycle (R118, R151). -/
def laneOp (op : Nat) : Bool :=
  (0x40 ≤ op && op ≤ 0x5C) || (0x70 ≤ op && op ≤ 0x86) || (0x90 ≤ op && op ≤ 0x95) || (0xC0 ≤ op && op ≤ 0xC4)

/-! ## Traps (R362 to R366) and the return from one (R99) -/

/-- View linear address of a gang's trap frame (R204). -/
def State.tframe (s : State) : Nat := s.coh.cb * 256 + 4096 + 256 * s.g.f2

/-- Bytes of a gang's own core at a view linear address (R377). -/
def State.ownRead (s : State) (a n : Nat) : List Byte :=
  let c := s.coh
  let m := s.pad (coreOf c.pair s.g.core)
  (List.range n).map fun i => m.read (linOf (laneOf (a + i)) (c.reloc (offOf (a + i))))

/-- The spans of 16 · n bytes from a view linear address on, in the gang's own core. -/
def State.ownSpans (s : State) (a n : Nat) : List Span :=
  let c := s.coh
  (List.range n).map fun i => (coreOf c.pair s.g.core, linOf (laneOf (a + 16 * i)) (c.reloc (offOf (a + 16 * i))), 16)

/-- 16 · n bytes there as the issuing slot sees them, its own effects in flight included (R28, R99). -/
def State.ownSeen (s : State) (a n : Nat) : List Byte :=
  let v := (s.settle (s.ownSpans a n)).asSeen
  (s.ownSpans a n).flatMap v.padRead

/-- 16 · n bytes written there, after what the gang has in flight on them (R28). -/
def State.ownWrite (s : State) (a : Nat) (bs : List Byte) : State :=
  let c := s.coh
  let core := coreOf c.pair s.g.core
  let place (i : Nat) : Nat := linOf (laneOf (a + i)) (c.reloc (offOf (a + i)))
  let spans := s.ownSpans a (bs.length / 16)
  let s := s.fixFx fun x => spans.any fun p => x.meets p.1 p.2.1 p.2.2
  s.poke core (bs.zipIdx.map fun p => (place p.2, p.1))

/-- A slot's 16-byte record in the trap frame (R363). -/
def Slot.record (x : Slot) (t : Nat) : List Byte :=
  let live : Nat := if x.live then 1 else 0
  let parked : Nat := if x.parked then 1 else 0
  let rep := if x.rep.nrep = 0 then 0
    else x.rep.nrep + x.rep.rep * 2 ^ 8 + x.rep.mask.toNat * 2 ^ 24 + (x.rep.strd - 1) * 2 ^ 28
  leBytes 4 x.pc ++ leBytes 4 (x.join.getD 0xFFFFFFFF) ++
  leBytes 4 (rep + live * 2 ^ 16 + parked * 2 ^ 17 + min 15 (x.next - t) * 2 ^ 20) ++ leBytes 4 0

/-- The slot as edited in a record (R363): masks are set apart; the first issue at cycle t plus the STALL left. -/
def Slot.ofRecord (bs : List Byte) (t : Nat) : Slot :=
  let w := leNat ((bs.drop 8).take 4)
  let join := leNat ((bs.drop 4).take 4)
  let nrep := bits w 0 7
  let rep := bits w 8 7
  let none_ := nrep = 0 || nrep > 64 || rep ≥ nrep
  { Slot.free with
    pc := leNat (bs.take 4), join := if join = 0xFFFFFFFF then none else some join, live := w.testBit 16,
    parked := w.testBit 16 && w.testBit 17, parkCyc := 0,
    rep := if none_ then .zero
      else { nrep := nrep, rep := rep, mask := BitVec.ofNat 4 (bits w 24 4), strd := bits w 28 2 + 1 },
    next := t + bits w 20 4 }

/-- The gang with a region state that holds no instruction in which a slot is blocked (R367). -/
def Gang.setRegion (g : Gang) (r : Nat × Nat) : Gang :=
  { g with regpc := r.1, regcnt := r.2, basepc := r.1, basecnt := r.2, without0 := r, without1 := r }

/-- The gang with the region state as it is without the instructions in which its slots are blocked: a stop finds them without effect
(R41, R369). -/
def Gang.settled (g : Gang) : Gang := g.setRegion (g.basepc, g.basecnt)

/-- The trap frame (R363); with no word it is the control block of a saved gang (R375). -/
def frameBytes (s : State) (code t : Nat) (e : Flt) (word lit : W64) (opreg tmask : Nat) (mask0 mask1 now : Nat) :
    List Byte :=
  let g := s.g
  leBytes 4 code ++ leBytes 4 e.detail ++ leBytes 8 word.toNat ++ leBytes 8 lit.toNat ++
  g.s0.record t ++ g.s1.record t ++ leBytes 4 g.regpc ++ leBytes 4 g.regcnt ++ leBytes 4 opreg ++ leBytes 4 g.stackd ++
  leBytes 8 e.condw ++ leBytes 32 tmask ++ leBytes 32 mask0 ++ leBytes 32 mask1 ++ leBytes 8 now ++ leBytes 72 0

/-- The units at a code address of the gang's text, and the length of the instruction there (R43, R49), 8 outside it: those of the address rounded
down to a unit (log 43). -/
def Kern.units (k : Kern) (pc : Nat) : List W32 := if pc < k.base then [] else k.text.drop ((pc - k.base) / 4)
def Kern.lengthAt (k : Kern) (pc : Nat) : Nat := unitLength (k.units pc)

/-- Past the instruction at hand (R99, R100): the next repetition, or the next instruction. -/
def Slot.past (x : Slot) (len : Nat) : Slot :=
  if x.rep.nrep != 0 && x.rep.rep + 1 < x.rep.nrep then { x with rep := { x.rep with rep := x.rep.rep + 1 } }
  else { x with pc := x.pc + len, rep := .zero }

/-- A cohort fault (R366): the first one is kept for the report; every gang of the cohort stops. A SOFTWARE or BREAK continues
after its instruction. -/
def cohortFault (s : State) (cause : Cause) (word : W64) : State :=
  let c := s.coh
  let f : FaultRec := { cause := cause.code, gang := s.g.f2, pc := s.g.here.pc, word := word }
  let s := s.setCohort { c with
    fault := match c.fault with | some x => some x | none => some f
    toFault := true
    st := if c.st = .resident then .stopped else c.st }
  if cause = .software || cause = .breakpoint then
    s.setHere (s.g.here.past (s.g.kn.lengthAt s.g.here.pc))
  else s

/-- What a gang has in flight under one thread goes on under another. -/
def Gang.retag (g : Gang) (f : Nat → Nat) : Gang :=
  { g with
    fx := g.fx.map fun x => { x with slot := f x.slot }
    pend := g.pend.map fun p => { p with slot := f p.slot }
    loads := g.loads.map fun x => { x with slot := f x.slot } }

/-- The state with the threads of the issuing gang's accesses and results changed. -/
def State.retag (s : State) (f : Nat → Nat) : State :=
  { s with
    g := s.g.retag f
    ops := s.ops.map fun o => if o.cohort = s.g.cohort && o.f2 = s.g.f2 then { o with slot := f o.slot } else o }

/-- The lanes whose guard is true in the instruction with this base word (R98, R363). -/
def State.trueLanes (s : State) (word : W64) : List Nat :=
  if laneOp (bits word.toNat 56 8) then s.lperforming (wordHdr word) else s.performing (wordHdr word)

/-- Taking a trap (R362): the frame is written at TFRAME, and the handler starts in S0, no earlier than 8 cycles on and once every result in
flight has landed. The region state stays as before the instruction that traps, so what it is with the other slot's blocked instruction in it
(R41, R367). In handler mode, or without a handler, it is a cohort fault (R42, R366). opreg is the region entry a wait reports (R368). -/
def takeTrap (s : State) (e : Flt) (word lit : W64) (opreg : Nat := 0xFFFFFFFF) : State :=
  match s.g.mode, s.g.kn.handler with
  | false, some entry =>
    let t := s.cyc
    let s := { s with g := s.g.setRegion (s.g.regpc, s.g.regcnt) }
    let g := s.g
    let tmask := maskOf ((s.trueLanes word).filter (· < 256))
    let code := e.cause.code + 2 ^ 8 * g.cur
    let x := g.here
    let bytes := frameBytes { s with g := g.setHere { x with next := t } } code t e word lit opreg tmask
      (g.s0.mask % 2 ^ 256) (g.s1.mask % 2 ^ 256) s.now
    let s := s.ownWrite s.tframe bytes
    let y := g.slot (1 - g.cur)
    let h : Slot := { Slot.free with
      pc := entry, mask := x.mask, live := true, next := max (t + 8) (g.lastDue t), tid := x.tid, acq := x.acq }
    { s with
      g := { s.g with
        mode := true, hstack := g.stackd, tcause := e.cause.code, s0 := h, s1 := .free, cur := 0,
        hi0 := g.s0.mask >>> 256, hi1 := g.s1.mask >>> 256,
        kept := { tid := x.tid, other := { tid := y.tid, acq := y.acq }, first := g.nextTid } } }
  | _, _ => cohortFault s e.cause word

/-- A slot that has just become free (R169). -/
def Slot.freed (t : Nat) : Slot := { Slot.free with next := t }

/-- Membership of a stack entry, from each lane's own copy (R166): which lanes of the gang it names. -/
def State.stackMembers (s : State) (e : Nat) : List Nat :=
  let g := s.g
  let c := s.coh
  let m := s.pad (coreOf c.pair g.core)
  let o := c.cb + 256 + 16 * g.kn.divd * g.f2 + 16 * e
  (List.range g.size).filter fun k =>
    let w := leNat ((List.range 4).map fun i => m.read (linOf (g.phys k) (c.reloc (o + 8) + i)))
    w.testBit (g.pass k)

/-- Whether one of the words of entry e that the divergence hardware reads is poisoned: the origin lane's PC and join, if they are read, and each
lane's membership (R166, R211). -/
def State.entryPoison (s : State) (e : Nat) (pc : Bool) : Bool :=
  let c := s.coh
  let core := coreOf c.pair s.g.core
  let o := c.reloc (c.cb + 256 + 16 * s.g.kn.divd * s.g.f2 + 16 * e)
  !s.spoison.isEmpty &&
  ((pc && s.padPoison core (linOf (s.g.phys 0) o) 8) || s.g.physLanes.any fun l => s.padPoison core (linOf l (o + 8)) 4)

/-- Whether a `tret` reads a poisoned word of its frame, or of the membership in an entry that stays on the stack (R99, R211, R365). -/
def State.returnPoison (s : State) : Bool :=
  let stackd := min (leNat (((s.ownSeen s.tframe 16).drop 68).take 4)) s.g.kn.divd
  (s.ownSpans s.tframe 16).any (fun p => s.slotPoison p.1 p.2.1 p.2.2) || (List.range stackd).any fun e => s.entryPoison e false

/-- What both of two slots waited for. -/
def Acq.join (a b : Acq) : Acq := { ops := a.ops ++ b.ops, nums := a.nums ++ b.nums }

/-- The return from a trap (R99, R365), once every result in flight has landed: form 0 `.fault`, 1 `.next`, 2 `.region`. It reads the frame
as it stands, with what the handler has stored. -/
def trapReturn (s : State) (form : Nat) : State :=
  let t := s.cyc
  let g := s.g
  let f := s.ownSeen s.tframe 16
  let T := bits (leNat (f.take 4)) 8 1
  let w32 (o : Nat) : Nat := leNat ((f.drop o).take 4)
  let region := w32 56
  let m0 := leNat ((f.drop 112).take 32)
  let m1 := leNat ((f.drop 144).take 32)
  let stackd := min (w32 68) g.kn.divd
  let fix (x : Slot) : Slot := { x with next := max x.next (t + 3) }
  let x0 := fix (Slot.ofRecord ((f.drop 24).take 16) t)
  let x1 := fix (Slot.ofRecord ((f.drop 40).take 16) t)
  let inGang := (List.range g.size).filter fun k => !(g.lane k).exited
  let all0 := (m0 + g.hi0 * 2 ^ 256) &&& maskOf inGang
  let k0 := if x0.live then all0 else 0
  let k1 := if x1.live then ((m1 + g.hi1 * 2 ^ 256) &&& maskOf inGang) &&& (maskOf inGang ^^^ all0) else 0
  let onStack := maskOf ((List.range stackd).flatMap fun e => s.stackMembers e)
  let lost := maskOf inGang &&& (maskOf inGang ^^^ ((k0 ||| k1) ||| onStack))
  let x0 := if k0 = 0 then Slot.freed t else { x0 with mask := k0 }
  let x1 := if k1 = 0 then Slot.freed t else { x1 with mask := k1 }
  let resume (x : Slot) : Slot :=
    let x := { x with tid := g.kept.tid, acq := g.here.acq }
    match form with
    | 0 => x
    | 1 => x.past (g.kn.lengthAt x.pc)
    | _ => { x with pc := region, rep := .zero }
  let back (x : Slot) (n : Nat) : Slot :=
    if !x.live then x else if T = n then resume x else { x with tid := g.kept.other.tid, acq := g.kept.other.acq }
  let s := s.retag fun n => if n ≥ g.kept.first then g.kept.tid else n
  let cnt := if form = 2 then 0 else w32 60
  { s with
    g := { s.g with
      mode := false, hstack := 0, tcause := 0, s0 := back x0 0, s1 := back x1 1, cur := T, stackd := stackd, regpc := region,
      regcnt := cnt, basepc := region, basecnt := cnt, without0 := (region, cnt), without1 := (region, cnt), stopAt := t,
      lanes := g.lanes.zipIdx.map fun p => if lost.testBit p.2 then { p.1 with exited := true } else p.1 } }

end Sys2Proof.Machine
end

