-- ==== Sys2Proof/Machine/Operands.lean ====
section
/-! DEFINITION. Operand values (spec/03 R47 to R52, spec/05 R106, R107, spec/06 R117 to R119), memory operands (spec/01 R12,
spec/02 R31, spec/03 R56, R57), and what each instruction reads and writes for the scoreboard (spec/02 R33, R37). -/
namespace Sys2Proof.Machine

open Sys2Proof

/-! ## Constants and literals -/

/-- The value of an inline code as a float value (R48). -/
def conFV (c : Nat) : FV :=
  if c < 368 then .fin false (c - 352) 0
  else if c < 376 then .fin true (c - 367) 0
  else match c with
    | 376 => .fin false 1 (-1) | 377 => .fin true 1 (-1) | 378 => .fin false 1 0 | 379 => .fin true 1 0
    | 380 => .fin false 2 0 | 381 => .fin true 2 0 | 382 => .fin false 4 0 | _ => .inf false

/-- The integer of an inline code (R48). -/
def conInt (c : Nat) : Int := if c < 368 then (c : Int) - 352 else 367 - (c : Int)

/-- One element repeated over the packed elements of a type. -/
def repeatElem (w n x : Nat) : Nat := (List.range n).foldl (fun a i => a + (x % 2 ^ w) * 2 ^ (w * i)) 0

/-- An inline constant as an operand of a type (R48). -/
def conVal (t : Ty) (c : Nat) : Nat :=
  let x := if t.isFloat then roundFV t.fmt 0 false (conFV c) 0 else ofInt t.width (conInt c)
  repeatElem t.width t.elems x

/-- A 32-bit literal read as 64 bits (R49): sign-extended for i64. -/
def ext32 (sx : Bool) (w : W32) : Nat := if sx then ofInt 64 (toInt true 32 w.toNat) else w.toNat

/-- A literal as an operand of a type (R49). -/
def litVal (t : Ty) : Lit → Nat
  | .none => 0
  | .w32 w => if t.width = 64 then ext32 (t == .i64) w else w.toNat
  | .w64 w => w.toNat

/-- Number of bits an operand of a type has: packed types read 32. -/
def opBits (t : Ty) : Nat := 32 * t.regs

/-! ## Reading operands -/

/-- An s register as read at cycle c. -/
def State.sreg (s : State) (c n : Nat) : W64 := BitVec.ofNat 64 (s.g.seen s.draws c 0 (.s n))

/-- n consecutive v registers of lane k read at cycle c, the first lowest. -/
def State.vregs (s : State) (c k r n : Nat) : Nat :=
  (List.range n).foldl (fun a i => a + s.g.seen s.draws c k (.v k (r + i)) * 2 ^ (32 * i)) 0

/-- An operand of a lane instruction in lane k at cycle c, as a number of the operand's bits (R47, R117, R119). An o code, of 32 bits, is
zero-extended as a 64-bit operand (log 43). -/
def State.opnd (s : State) (t : Ty) (lit : Lit) (c k : Nat) (o : Opnd) : Nat :=
  let cut (x : Nat) : Nat := x % 2 ^ opBits t
  match o with
  | .v n => s.vregs c k n t.regs
  | .s n => cut (s.g.seen s.draws c k (.s n))
  | .p n => s.g.seen s.draws c k (.p k n)
  | .o n => s.g.seen s.draws c k (.o k s.g.bank n)
  | .l 0 => cut (s.g.seen s.draws c k (.l k s.g.bank s.g.cur))
  | .l _ => cut (s.g.seenL1 s.draws c k s.g.bank s.g.cur)
  | .x => s.g.kx k
  | .y => s.g.ky k
  | .k => k
  | .con n => conVal t n
  | .lit32 | .lit64 => litVal t lit
  | .reserved => 0

/-- An operand of a gang-uniform instruction, read at issue (R106, R107). -/
def State.sopnd (s : State) (t : Ty) (lit : Lit) (code : BitVec 9) : Nat := s.opnd t lit s.cyc 0 (.ofCode code.toNat)

/-- An operand of a lane instruction in lane k. -/
def State.lopnd (s : State) (t : Ty) (lit : Lit) (k : Nat) (code : BitVec 9) : Nat :=
  s.opnd t lit (s.laneCyc k) k (.ofCode code.toNat)

/-- Whether a lane's predicate operand is true. -/
def State.popnd (s : State) (k : Nat) (code : BitVec 9) : Bool := s.lopnd .b32 .none k code != 0

/-- Element e of an operand of a type (R119). -/
def elemOf (t : Ty) (x e : Nat) : Nat := (x / 2 ^ (t.width * e)) % 2 ^ t.width

/-- An operand made from its elements. -/
def ofElems (t : Ty) (f : Nat → Nat) : Nat :=
  (List.range t.elems).foldl (fun a e => a + (f e % 2 ^ t.width) * 2 ^ (t.width * e)) 0

/-! ## Memory operands -/

/-- An offset or increment as a signed number in lane k (R12, R56, R57, R141): a v code is read as i32, a 32-bit literal is
sign-extended (log 10). -/
def State.offset (s : State) (lit : Lit) (c k : Nat) (code : BitVec 9) : Int :=
  match Opnd.ofCode code.toNat, lit with
  | .v n, _ => toInt true 32 (s.vregs c k n 1)
  | .s n, _ => toInt true 64 (s.g.seen s.draws c k (.s n))
  | .con n, _ => conInt n
  | .lit32, .w32 w => toInt true 32 w.toNat
  | _, .w64 w => toInt true 64 w.toNat
  | _, _ => 0

/-- The s register that field A names. -/
def sIdx (code : BitVec 9) : Nat := code.toNat - 256

/-- The address of an access form in lane k (R142, R227). -/
def State.addr (s : State) (f : Fields) (c k : Nat) : Nat :=
  let a := s.g.seen s.draws c k (.s (sIdx f.a))
  if f.am = 1 then ofInt 64 ((a : Int) + s.offset f.lit c k f.b) else a

/-- The address of an ordered form in lane k (R57): B = 0 names no offset. -/
def State.oaddr (s : State) (f : Fields) (c k : Nat) : Nat :=
  let a := s.g.seen s.draws c k (.s (sIdx f.a))
  if f.b = 0 then a else ofInt 64 ((a : Int) + s.offset f.lit c k f.b)

/-- The walk of a modulo window (R31). -/
def windowStep (w : W64) (a : Nat) (inc : Int) : Nat :=
  let b : Int := bits w.toNat 0 32
  let n := bits w.toNat 32 32
  if n = 0 then ofInt 64 (a + inc) else ofInt 64 (b + ((a : Int) - b + inc) % n)

/-- The lane number under which a gang reads a register once for all its lanes, beside what each lane reads (R37). -/
def gangLane : Nat := 4096

/-- The update of the address register, readable one core cycle later (R31, R142, R143). k is the lane whose reading serves it: 0 in a
gang-uniform form, which reads its registers once. -/
def State.postInc (s : State) (k : Nat) (f : Fields) : List Pend :=
  let t := s.cyc
  let a := s.g.seen s.draws t k (.s (sIdx f.a))
  let inc := s.offset f.lit t k f.b
  let up (v : Nat) : List Pend := [{ due := t + 1, slot := s.g.tag, tgt := .s (sIdx f.a), val := v }]
  match f.am with
  | 2 => up (ofInt 64 ((a : Int) + inc))
  | 3 => up (windowStep (BitVec.ofNat 64 (s.g.seen s.draws t k (.k f.kw))) a inc)
  | _ => []

/-! ## Sources, destinations and latencies (R33, R34, R37) -/

/-- Fields D that are read: stored values, tested registers, descriptors of planes, expected values of `.cas`, and
destinations that keep some of their elements (R137, R138). -/
def dIsSource (op : Nat) (f : Fields) : Bool :=
  op = 0x37 || op = 0xC1 || op = 0xC3 || (0xA2 ≤ op && op ≤ 0xAB) || op = 0xB0 ||
  (op = 0xC4 && f.osub ≥ 14) ||
  (op = 0x84 && f.ty.elems > (Ty.ofCode (bits f.b.toNat 0 4)).elems) || op = 0x85

/-- The register targets of an operand in lane k. -/
def opndTgts (g : Gang) (k : Nat) (o : Opnd) (n : Nat) : List Tgt :=
  match o with
  | .v r => (List.range n).map fun i => .v k (r + i)
  | .s r => (List.range n).map fun i => .s (r + i)
  | .p r => if r = 0 then [] else [.p k r]
  | .o r => [.o k g.bank r]
  | .l _ => [.l k g.bank g.cur]
  | _ => []

/-- The targets that one source field names. -/
def posTgts (g : Gang) (k : Nat) (q : Pos) (code : BitVec 9) (n : Nat) : List Tgt :=
  match q with
  | .offOrZero _ | .sOrZero => if code = 0 then [] else opndTgts g k (.ofCode code.toNat) 1
  | _ =>
    if q.isOperand then
      match Opnd.ofCode code.toNat with
      | .s r => opndTgts g k (.s r) n
      | o => opndTgts g k o q.regs
    else []

/-- The source registers of an instruction in lane k, each with its field number, in field order (R37). -/
def srcsOf (g : Gang) (k : Nat) : View → List (Nat × Tgt)
  | .cf op f =>
    let sh := opShape op f
    let na := if op = 0xCB then f.b.toNat - 352 else 1
    let d := if dIsSource op f then posTgts g k sh.d f.d 1 else []
    let a := posTgts g k sh.a f.a na
    let b := posTgts g k sh.b f.b 1
    let w := if 0x36 ≤ op && op ≤ 0xC3 && f.am = 3 && (op ≤ 0x37 || op ≥ 0xC0) then [Tgt.k f.kw] else []
    let c := if op = 0x85 || op = 0xAE then [] else posTgts g k sh.c f.c 1
    -- the auxiliary word (R285) and mask registers (R318, R334)
    let aux := if 0xD4 ≤ op && op ≤ 0xD7 && f.esub % 2 = 1 then [Tgt.s (sIdx f.d + 1)] else []
    let mk := if (op = 0xE0 || op = 0xE1) && f.mmode != 0 then [Tgt.m f.mreg] else []
    let b := if op = 0xE9 && f.sub != 5 then [Tgt.m (f.b.toNat % 8)] else b
    let c := if op = 0xE9 && f.sub < 4 then [Tgt.m (f.c.toNat % 8)] else c
    (d ++ aux ++ mk).map (fun t => (0, t)) ++ a.map (fun t => (1, t)) ++ (b ++ w).map (fun t => (2, t)) ++ c.map (fun t => (3, t))
  | .cj op f =>
    let q := (jForm op).1
    (posTgts g k q f.d 1).map fun t => (0, t)
  | .cs op f => (posTgts g k (sForm op).2 f.a 1).map fun t => (1, t)
  | .cq _ => []

/-- The destination registers that the scoreboard follows in lane k; those of plane instructions are their own (R38). -/
def dstsOf (g : Gang) (k : Nat) : View → List Tgt
  | .cf op f =>
    let sh := opShape op f
    let d := if op = 0x37 || op = 0xC1 || op = 0xC3 || (0xA2 ≤ op && op ≤ 0xAB) || op = 0xB0 then []
      else posTgts g k sh.d f.d 1
    let c := if op = 0x85 || op = 0xAE then posTgts g k sh.c f.c 1 else []
    d ++ c ++ (if op = 0xE9 then [Tgt.m (f.a.toNat % 8)] else [])
  | .cj op f => if op = 0x07 || op = 0x08 then [.s 63] else if op = 0x0A then [.s (sIdx f.d)] else []
  | .cs op f => match op with
    | 0x11 => [.s (sIdx f.d)]
    | 0x12 => []
    | _ => [.k (f.d.toNat % 8)]
  | .cq _ => []

/-- Whether any of the lanes names the pair core (R114, R228, R231). -/
def namesPair (ks : List Nat) (addr : Nat → Nat) : Bool := ks.any fun k => (addr k).testBit 21

/-- The hop term of `mvn` for a grid extent and distance (R191). -/
def mvnHops (ext : Nat) (wrap : Bool) (d : Int) : Nat :=
  if wrap then
    let e := (d % ext).toNat
    min (min e (ext - e)) 16
  else if d.natAbs ≥ ext then 0 else min d.natAbs 16

/-- The distance of `mvn`, read as i32 (R191). -/
def State.mvnDist (s : State) (f : Fields) : Int := toInt true 32 (s.sopnd .i32 f.lit f.b)

/-- The latency of an instruction's register result, from its pass's issue cycle (R34, R120, R228, R231, R238). Of a word that blocks (`wait`,
`chsend`, `chrecv`, `chrel`), whose result lands after the hold, it is the earliest: R33 names no landing cycle for it (DESIGN CHOICE, log 44). -/
def State.latency (s : State) (v : View) : Nat :=
  match v with
  | .cf op f =>
    if op = 0x36 || op = 0x37 then
      if namesPair [0] (fun _ => s.addr f s.cyc 0) then 24 else 14
    else if op = 0x38 || op = 0x39 then 4
    else if op = 0x13 then 8
    else if op ≤ 0x3B then 2
    else if op ≤ 0x5C then 4
    else if 0x7A ≤ op && op ≤ 0x80 then 16
    else if op ≤ 0x86 then 6
    else if op ≤ 0x95 || op = 0x14 then 2
    else if op = 0xC0 || op = 0xC1 then 8
    else if op = 0xC2 || op = 0xC3 then
      if namesPair (s.lperforming f.h) (fun k => s.addr f (s.laneCyc k) k) then 24 else 14
    else if op = 0xC4 then
      if namesPair (s.lperforming f.h) (fun k => s.oaddr f (s.laneCyc k) k) then 24 else 20
    else if 0xC6 ≤ op && op ≤ 0xCA then
      if namesPair [0] (fun _ => s.oaddr f s.cyc 0) then 24 else 20
    else if op = 0xCB then 4
    else if op = 0x96 then 3 + s.g.passes
    else if op = 0xA0 then
      s.g.passes - 1 + 4 + mvnHops (if f.sub % 2 = 1 then s.g.gy else s.g.gx) (f.sub / 2 = 3) (s.mvnDist f)
    else if op = 0xAC then 600
    else if op = 0xAD then s.g.passes - 1 + 12
    else if op = 0xAE then s.g.passes - 1 + 20
    else if op = 0xAF then s.g.passes - 1 + 24
    else if op = 0xA1 then 2
    else if 0xD9 ≤ op && op ≤ 0xDC then 4
    else if op ≥ 0xD0 then 8
    else 4
  | _ => 2

/-- The latency of an instruction's result in one register: the mask register of `mop` is a scalar result (R334). -/
def State.latencyOf (s : State) (v : View) (t : Tgt) : Nat :=
  match v, t with
  | .cf 0xE9 _, .m _ => 2
  | _, _ => s.latency v

/-- Whether an instruction is a lane instruction. -/
def isLanewise : View → Bool
  | .cf op _ => laneOp op
  | _ => false

/-- The lanes whose registers an instruction reads as sources, each with the cycle of its reading: the lane that `rdlane` and `wrlane` name
(R194); the source lanes of `mvn` and `bperm` (R191, R193); else the performing lanes, none for a skipped gang-uniform instruction
(R37, R89). -/
def State.readers (s : State) (v : View) (moved : List Nat) : List (Nat × Nat) :=
  match v with
  | .cf op f =>
    if laneOp op then (s.lperforming f.h).map fun k => (k, s.laneCyc k)
    else
      let ks := if op = 0x38 || op = 0x39 then (if s.acts f.h then [s.sopnd .n64 f.lit f.b % s.g.size] else [])
        else if op = 0xA0 || op = 0xAD then moved
        else s.performing f.h
      ks.map fun k => (k, s.cyc)
  | _ => (s.performing v.hdr).map fun k => (k, s.cyc)

/-- The lanes that write, likewise. -/
def State.writers (s : State) (v : View) : List (Nat × Nat) :=
  match v with
  | .cf op f =>
    if laneOp op then (s.lperforming f.h).map fun k => (k, s.laneCyc k)
    else if op = 0x39 then ((s.performing f.h).filter fun k => k = s.sopnd .n64 f.lit f.b % s.g.size).map fun k => (k, s.cyc)
    else (s.performing f.h).map fun k => (k, s.cyc)
  | _ => (s.performing v.hdr).map fun k => (k, s.cyc)

/-- What a post-increment form reads for the update of its address register, in the issue cycle and with no lane performing too
(R89, R114, R143). -/
def updateSrcs (g : Gang) : View → List (Nat × Tgt)
  | .cf op f => if (op = 0x36 || op = 0x37 || (0xC0 ≤ op && op ≤ 0xC3)) && f.am ≥ 2
      then (srcsOf g 0 (.cf op f)).filter fun p => p.1 != 0 && match p.2 with | .s _ => true | .k _ => true | _ => false
      else []
  | _ => []

/-- What the issue of an instruction looks at besides the fields of its word: for STALL_SHORT sources with their field, and destinations with
the latency of their landing; the lanes read; and units (R173, R191, R193). -/
structure Also where
  srcs : List (Nat × Tgt)
  dsts : List Tgt
  lat : Nat
  /-- the lanes from which `mvn` and `bperm` take values -/
  moved : List Nat
  /-- units besides those that the opcode gives, each with its occupancy -/
  units : List (ExecUnit × Nat)
  deriving DecidableEq, Repr

/-- Nothing besides. -/
def Also.none_ : Also := { srcs := [], dsts := [], lat := 0, moved := [], units := [] }

/-- The field that STALL_SHORT reports (R33, R37, R364): the first unready source by field, then the guard, then a destination that an
earlier issue of the slot has still to write no sooner than this one; none when the scoreboard has nothing to say. -/
def State.short (s : State) (v : View) (also : Also) : Option Nat :=
  let g := s.g
  let h := v.hdr
  let lane (k : Nat) : Nat := match v with | .cf op _ => if laneOp op then s.laneCyc k else s.cyc | _ => s.cyc
  let bad := ((s.readers v also.moved).flatMap fun k => ((srcsOf g k.1 v).filter fun p => g.early k.2 p.2).map (·.1)) ++
    ((updateSrcs g v ++ also.srcs).filter fun p => g.early s.cyc p.2).map (·.1)
  match bad with
  | x :: xs => some (xs.foldl min x)
  | [] =>
    if h.g != 0 && g.active.any (fun k => g.early (lane k) (.p k h.g.toNat)) then some 0
    else
      let late (t : Tgt) (c : Nat) : Bool := g.pend.any fun p => p.slot = g.tag && p.tgt == t && c ≤ p.due
      if (s.writers v).any (fun k => (dstsOf g k.1 v).any fun t => late t (k.2 + s.latencyOf v t)) ||
        also.dsts.any (fun t => late t (s.cyc + also.lat)) then some 0
      else none

/-! ## Units (R34, R120, R150, R151, R173, R192, R199, R228) -/

/-- The greatest number of distinct 16-byte groups that the accesses of the lanes ks touch in one lane of either core in one pass, at least 1
(R228). -/
def State.bankGroups (s : State) (ks : List Nat) (addr : Nat → Nat) : Nat :=
  let touched := (ks.map fun k => (s.g.pass k, addr k / 16 % 2 ^ 18)).eraseDups
  touched.foldl (fun n x => max n (touched.filter fun y => y.1 = x.1 && y.2 % 256 = x.2 % 256 && y.2 / 2 ^ 17 = x.2 / 2 ^ 17).length) 1

/-- The units that an instruction needs to be free, with the core cycles for which it takes them. Units of occupancy 1 that no other quadrant
shares go with the issue slot. Banks hold `ldx`, `stx` and `atoms` alone, and those of the issuing gang's core alone, also where a lane names
the pair core (log 44). -/
def State.units (s : State) (v : View) (also : Also) : List (ExecUnit × Nat) :=
  match v with
  | .cf op f =>
    let p := s.g.passes
    let quad (u : Nat → ExecUnit) (n : Nat) : List (ExecUnit × Nat) := s.g.quads.map fun q => (u q, n)
    let banks (addr : Nat → Nat) : List (ExecUnit × Nat) := [(.banks, p * s.bankGroups (s.lperforming f.h) addr)]
    (if 0x40 ≤ op && op ≤ 0x5C then quad .int (p * if 0x42 ≤ op && op ≤ 0x44 && f.ty.width = 64 then 2 else 1)
     else if 0x7A ≤ op && op ≤ 0x80 then quad .special (4 * p)
     else if op = 0xAE || op = 0xAF then [(.key, 4 * p)]
     else if op = 0xAD then [(.benes, 1)]
     else if op = 0xAC then (if s.acts f.h then [(.benes, 600)] else [])
     else if op = 0xC2 || op = 0xC3 then banks fun k => s.addr f (s.laneCyc k) k
     else if op = 0xC4 then banks fun k => s.oaddr f (s.laneCyc k) k
     else []) ++ also.units
  | _ => []

/-- The core cycles for which an instruction takes the issue slots of its quadrants (R150, R151, R191, R193, R199, R200). -/
def State.span (s : State) (v : View) : Nat :=
  match v with
  | .cf op _ => if laneOp op || op = 0xA0 || op = 0xAD || op = 0xAE || op = 0xAF then s.g.passes else 1
  | _ => 1

/-- Whether the units of a core of the pair are free at its cycle. -/
def Pair.allFree (p : Pair) (core : Nat) (us : List (ExecUnit × Nat)) : Bool :=
  us.all fun u => p.busy.all fun b => !(b.core = core && b.unit = u.1) || b.free ≤ p.cyc

/-- The first cycle at which one of them that is taken may be free. -/
def Pair.freeAt (p : Pair) (core : Nat) (us : List (ExecUnit × Nat)) : Nat :=
  (p.busy.filter fun b => b.core = core && us.any fun u => b.unit == u.1).foldl (fun m b => max m b.free) (p.cyc + 1)

/-- The units are taken. -/
def Pair.take (p : Pair) (core : Nat) (us : List (ExecUnit × Nat)) : Pair :=
  { p with busy := us.foldl (fun bs u => { core := core, unit := u.1, free := p.cyc + u.2 } ::
      bs.filter fun b => !(b.core = core && b.unit = u.1)) (p.busy.filter fun b => p.cyc < b.free) }

/-- The issuing gang takes units of its core. -/
def State.take (s : State) (us : List (ExecUnit × Nat)) : State := s.setPair s.coh.pair ((s.pair s.coh.pair).take s.g.core us)

/-- What the issue of an instruction takes: the issue slots of its quadrants, and its units. -/
def State.taken (s : State) (v : View) (also : Also) : List (ExecUnit × Nat) :=
  (s.g.quads.map fun q => (.issue q, s.span v)) ++ s.units v also

/-! ## Writing results -/

/-- One register result of the issuing slot that lands at cycle due. -/
def State.result (s : State) (due : Nat) (t : Tgt) (v : Nat) : Pend := { due := due, slot := s.g.tag, tgt := t, val := v }

/-- The result of a scalar instruction: it lands lat cycles after issue (R34, R106). -/
def State.sResult (s : State) (lat : Nat) (code : BitVec 9) (v : Nat) : List Pend :=
  [s.result (s.cyc + lat) (.s (sIdx code)) v]

/-- The registers whose value a destination of regs registers gives to l0 (R22). -/
def State.lastRegs (s : State) (k : Nat) (o : Opnd) (regs : Nat) : List Tgt :=
  match o with
  | .v n => (List.range (min regs 2)).map fun i => .v k (n + i)
  | .o n => [.o k s.g.bank n]
  | _ => []

/-- When a lane's shift of the issuing slot's l file becomes readable (R22). -/
def State.shiftDue (s : State) (due k : Nat) : Nat :=
  s.g.pend.foldl (fun d p => if p.tgt == .l k s.g.bank s.g.cur then max d p.due else d) due

/-- Results in lanes: D in the lanes that take part, and the shift of the l file in every active lane (R22, R118); where a lane takes no
part, the shift takes what D holds once the issue completes. at_ gives the
cycle of a lane's issue, val its value as one number of 32 · regs bits. -/
def State.resultsBy (s : State) (at_ : Nat → Nat) (takes : Nat → Bool) (code : BitVec 9) (regs lat : Nat)
    (val : Nat → Nat) : List Pend :=
  let o := Opnd.ofCode code.toNat
  s.g.active.flatMap fun k =>
    let due := at_ k + lat
    if takes k then
      let x := val k
      let regsOf : List Pend := match o with
        | .v n => (List.range regs).map fun i => s.result due (.v k (n + i)) (x / 2 ^ (32 * i) % 2 ^ 32)
        | .o n => [s.result due (.o k s.g.bank n) (x % 2 ^ 32)]
        | _ => []
      regsOf ++ [s.result (s.shiftDue due k) (.l k s.g.bank s.g.cur) (x % 2 ^ (32 * min regs 2))]
    else [{ s.result (s.shiftDue due k) (.l k s.g.bank s.g.cur) 0 with keep := some (due, s.lastRegs k o regs) }]

/-- The results of a lane instruction (R118, R151). -/
def State.laneResults (s : State) (h : Hdr) (code : BitVec 9) (regs lat : Nat) (val : Nat → Nat) : List Pend :=
  s.resultsBy s.laneCyc (s.lguard h) code regs lat val

/-- The results of an instruction that writes a predicate in the lanes ks (R113, R127, R139). -/
def State.predResults (s : State) (ks : List Nat) (code : BitVec 9) (at_ : Nat → Nat) (lat : Nat) (val : Nat → Bool) :
    List Pend :=
  ks.map fun k => s.result (at_ k + lat) (.p k (code.toNat - 320)) (if val k then 1 else 0)

/-- The performing lanes of a lane instruction take n draws each (R73). -/
def State.draw (s : State) (h : Hdr) (rnd n : Nat) : State :=
  if rnd = 4 then
    { s with g := (s.lperforming h).foldl (fun g k => g.modLane k fun l => { l with z := zAfter l.z n }) s.g }
  else s

/-- The generator of lane k. -/
def State.zOf (s : State) (k : Nat) : W64 := (s.g.lane k).z

end Sys2Proof.Machine
end

