-- ==== Sys2Proof/Machine/Issue.lean ====
section
/-! DEFINITION. The issue of one instruction by the issuing slot of the gang s.g: what every instruction of the word format
shares. Results due have landed; the fields step under `rpt` (spec/03 R62, R63, spec/05 R100); decode faults come first, then
STALL_SHORT, then the instruction's own checks (spec/02 R40, R41); an instruction without a fault has its effect, and the slot
goes on (spec/02 R35, R91, R151), with REGPC, REGCNT and ISSUES counted (spec/05 R102, spec/18 R367). -/
namespace Sys2Proof.Machine

open Sys2Proof

/-- How the slot goes on after an instruction that did not trap. -/
inductive Flow
  /-- the next repetition or instruction, no earlier than span + STALL cycles on (R35, R151) -/
  | seq (span : Nat)
  /-- control passes to a code address (R91) -/
  | goto (pc : Nat)
  /-- the instruction has set the slots itself -/
  | own
  /-- as own, with the region state set by the instruction too (R99) -/
  | returned
  /-- the slot blocks in the instruction, which has no effect yet (R233, R240, R369) -/
  | blocked (b : Block)
  /-- held at issue by an engine, or by an operation that an `.acq` part waits for: the instruction has not issued (R247, R248, R257) -/
  | held (eng : Nat) (why : HoldFor)
  /-- not before cycle t: the instruction has not issued (R34, R231) -/
  | later (t : Nat)
  deriving DecidableEq, Repr

/-! ## Repetitions (R62, R63, R100) -/

/-- The fields as read in the repetition at hand. -/
def stepFields (r : Rep) (f : Fields) : Fields :=
  if r.nrep = 0 then f
  else
    let n := BitVec.ofNat 9 (r.strd * r.rep)
    { f with
      d := if r.mask.getLsbD 0 then f.d + n else f.d, a := if r.mask.getLsbD 1 then f.a + n else f.a,
      b := if r.mask.getLsbD 2 then f.b + n else f.b, c := if r.mask.getLsbD 3 then f.c + n else f.c }

/-- Whether a stepped field breaks R63; a zero that names no register holds no register code (R57). -/
def stepBreaks (r : Rep) (q : Pos) (code : Nat) : Bool :=
  let last := code + r.strd * (r.nrep - 1)
  !q.isOperand || (code = 0 && match q with | .offOrZero _ | .sOrZero => true | _ => false) || match Opnd.ofCode code with
    | .v _ => last + q.regs - 1 > 255
    | .s _ => last > 319
    | .p _ => last > 335
    | .o _ => last > 343
    | _ => true

/-- REPEAT_MISUSE (R63), judged on the instruction as it stands. -/
def repFaults (r : Rep) (v : View) : List Flt :=
  if r.nrep = 0 then []
  else
    let bad := match v with
      | .cf op f =>
        let sh := opShape op f
        !repeatable op || f.h.region || (r.mask.getLsbD 0 && stepBreaks r sh.d f.d.toNat) ||
        (r.mask.getLsbD 1 && stepBreaks r sh.a f.a.toNat) || (r.mask.getLsbD 2 && stepBreaks r sh.b f.b.toNat) ||
        (r.mask.getLsbD 3 && stepBreaks r sh.c f.c.toNat)
      | _ => true
    if bad then [⟨.repeatMisuse, 0, 0⟩] else []

/-! ## Faults that depend on the gang -/

/-- A v code at or beyond V (R20). -/
def overV (regs : Nat) (q : Pos) (code i : Nat) : List Flt :=
  match q with
  | .offOrZero _ | .sOrZero | .unused => if code < 256 && code != 0 && code ≥ regs then [⟨.illegalOperand, i, 0⟩] else []
  | _ => if q.isOperand && code < 256 && code + q.regs > regs then [⟨.illegalOperand, i, 0⟩] else []

/-- The faults of R20 and of handler-only instructions in normal mode (R99, R101). -/
def gangFaults (g : Gang) (v : View) : List Flt :=
  match v with
  | .cf op f =>
    let sh := opShape op f
    overV g.kn.regs sh.d f.d.toNat 0 ++ overV g.kn.regs sh.a f.a.toNat 1 ++ overV g.kn.regs sh.b f.b.toNat 2 ++
    overV g.kn.regs sh.c f.c.toNat 3 ++ (if sh.priv && !g.mode then [⟨.privilege, 0, 0⟩] else [])
  | .cs op f => if op = 0x11 && f.sreg.toNat ≥ 0x20 && !g.mode then [⟨.privilege, 0, 0⟩] else []
  | _ => []

/-- The decode fault an issue meets first (R40, R41, R63, R100): v0 is the instruction as it stands, decoded once; v as stepped, which shows
faults of its own only where the repeat is one that R63 allows. -/
def decodeFault (g : Gang) (v0 v : View) : Option Flt :=
  let rep := repFaults g.here.rep v0
  firstFault (v0.faults ++ gangFaults g v ++ rep ++ if rep.isEmpty then v.faults else [])

/-! ## The word as a trap frame shows it (R363) -/

/-- The base word of a view. -/
def wordOf : View → W64
  | .cf op f => encFields op f
  | .cj op f => encJ op f
  | .cs op f => encS op f
  | .cq f => encQ f

/-- The literal, zero-extended; the join unit of `brv` is placed as one (R43). -/
def litOf : View → W64
  | .cf _ f => match f.lit with | .none => 0 | .w32 w => BitVec.ofNat 64 w.toNat | .w64 w => w
  | .cj _ f => match f.join with | some j => BitVec.ofNat 64 j.toNat | none => 0
  | .cs _ f => match f.lit with | .none => 0 | .w32 w => BitVec.ofNat 64 w.toNat | .w64 w => w
  | .cq _ => 0

/-! ## Going on -/

/-- The region state (REGPC, REGCNT) after the issue of an instruction at pc (R367). -/
def regionPc (h : Hdr) (pc old : Nat) : Nat := if h.region then pc else old
def regionCnt (h : Hdr) (old : Nat) : Nat := if h.region then 0 else min (old + 1) 0xFFFFFFFF

/-- A slot blocked in an instruction it has issued; a hold at issue is not one (R168). -/
def Slot.inBlocking (x : Slot) : Bool :=
  match x.block with
  | .none => false
  | .hold _ _ _ _ => false
  | _ => true

/-- A region state after such an issue. -/
def regionNext (h : Hdr) (pc : Nat) (r : Nat × Nat) : Nat × Nat := (regionPc h pc r.1, regionCnt h r.2)

/-- ISSUES and the region state count an issue that does not trap (R102, R367): pc is the issuing slot's PC. What the region state is without an
instruction that blocks is kept beside it (R41). -/
def countRegion (s : State) (h : Hdr) (pc : Nat) (blocks : Bool := false) : State :=
  let g := s.g
  let own (r : Nat × Nat) : Nat × Nat := if blocks then r else regionNext h pc r
  { s with
    draws := s.draws + 1
    g := { g with
      issues := g.issues + 1
      regpc := regionPc h pc g.regpc
      regcnt := regionCnt h g.regcnt
      basepc := (own (g.basepc, g.basecnt)).1
      basecnt := (own (g.basepc, g.basecnt)).2
      without0 := if g.cur = 0 then own g.without0 else regionNext h pc g.without0
      without1 := if g.cur = 0 then regionNext h pc g.without1 else own g.without1 } }

/-- An instruction in which the issuing slot was blocked completes: it stands in the region state for good (R367). -/
def keepRegion (s : State) : State :=
  let g := s.g
  let full := (g.regpc, g.regcnt)
  let base := if g.cur = 0 then g.without1 else g.without0
  { s with
    draws := s.draws + 1
    g := { g with
      basepc := base.1
      basecnt := base.2
      without0 := if g.cur = 0 then full else g.without0
      without1 := if g.cur = 0 then g.without1 else full } }

/-- What every issue that does not trap counts (R101, R102, R357, R367). -/
def countIssue (s : State) (h : Hdr) (pc : Nat) : State :=
  let s := countRegion s h pc
  { s with g := { s.g with lastIssue := s.cyc + 1, lastSlot := s.g.cur } }

/-- The deadline of a hold at issue, counted from the first attempt (R248). -/
def holdDeadline (s : State) : Nat :=
  match s.g.here.block with
  | .hold _ d _ _ => d
  | _ => s.now + s.g.kn.hang

/-- The slot after an instruction without a fault. -/
def goOn (s : State) (v : View) (pc : Nat) (fl : Flow) : State :=
  let t := s.cyc
  let stall := v.hdr.stall.toNat
  let x := s.g.here
  match fl with
  | .seq span =>
    countIssue (s.setHere { (x.past v.length) with next := t + span + stall, block := .none }) v.hdr pc
  | .goto target =>
    countIssue (s.setHere { x with pc := target, next := t + max (1 + stall) 3, block := .none }) v.hdr pc
  | .own => countIssue s v.hdr pc
  | .returned => { s with draws := s.draws + 1, g := { s.g with issues := s.g.issues + 1, lastIssue := t + 1 } }
  | .blocked b =>
    let s := countRegion (s.setHere { x with next := t + 1 + stall, block := b }) v.hdr pc true
    { s with g := { s.g with lastIssue := t + 1, lastSlot := s.g.cur } }
  | .held eng why => s.setHere { x with next := max x.next (t + 1), block := .hold eng (holdDeadline s) why false }
  | .later c => s.setHere { x with wake := max x.wake c }

/-- Before an instruction reads a register that an RMW in flight is to write, the RMW's place is fixed: the value that the read may give is
the one that lands (R37, R231); one that is to take the value of a later pass's read has that read made (R151, log 44). -/
def State.fixRead (s : State) (v : View) (also : Also) : State :=
  if s.g.pend.all (·.rmw = 0) then s
  else
    let ts := ((s.readers v also.moved).flatMap fun k => (srcsOf s.g k.1 v).map (·.2)) ++ (updateSrcs s.g v ++ also.srcs).map (·.2)
    let nums := (s.g.pend.filter fun p => p.rmw != 0 && ts.contains p.tgt).map (·.rmw)
    (s.fixResults fun x => nums.contains x.num).loadIf fun x => nums.contains x.num

/-- An instruction that goes on has issued, and takes what its issue takes; one held at issue has not (R34, R248). -/
def Flow.issued : Flow → Bool
  | .held _ _ | .later _ => false
  | _ => true

/-- What an instruction that did not trap leaves. -/
def finish (s : State) (v : View) (also : Also) (s' : State) (fl : Flow) : State :=
  let s' := if fl.issued then s'.take (s.taken v also) else s'
  goOn s' v s.g.here.pc fl

/-- What an issue that traps takes: the issue slots of its quadrants (R150, R362). -/
def State.takeIssue (s : State) : State := s.take (s.g.quads.map fun q => (.issue q, 1))

/-- Whether the scoreboard looks at the issues of a gang: under CHK (R37), and where the text is Oliesh's. -/
def Gang.checks (g : Gang) : Bool := g.chk || g.kn.waits

/-- The issue of an instruction: v0 as it stands, v as stepped, on a state whose due results have landed. An occupied unit holds it before it
reads anything (R34, R173). Text that Oliesh wrote raises STALL_SHORT nowhere (R39, R409): where its counts cannot cover a result (one of the
gang's other slot, a repeat that R409 forbids to split, a plane result), it issues once the result has landed (log 6). -/
def issueV (v0 v : View) (s : State) (also : Also) (body : State → Except Flt (State × Flow)) : Answer :=
  let trap (e : Flt) : Answer := .next (takeTrap s.takeIssue e (wordOf v0) (litOf v0))
  let p := s.pair s.coh.pair
  match decodeFault s.g v0 v with
  | some e => trap e
  | none =>
    if !(p.allFree s.g.core (s.units v also)) then .next (goOn s v s.g.here.pc (.later (p.freeAt s.g.core (s.units v also))))
    else
      match (if s.g.checks then s.short v also else none) with
      | some d => if s.g.kn.waits then .next (goOn s v s.g.here.pc (.later (s.cyc + 1))) else trap ⟨.stallShort, d, 0⟩
      | none =>
        match body (s.fixRead v also) with
        | .error e => trap e
        | .ok (s', fl) => .next (finish s v also s' fl)

/-- The issue of an instruction of classes V, K, M, P, E and X that looks at more than its fields. -/
def issueWith (op : Nat) (f : Fields) (s : State) (also : State → Fields → Also)
    (body : State → Fields → Except Flt (State × Flow)) : Answer :=
  let s := s.land
  let f' := stepFields s.g.here.rep f
  issueV (.cf op f) (.cf op f') s (also s f') fun s => body s f'

/-- The issue of any other instruction of these classes. -/
def issueF (op : Nat) (f : Fields) (s : State) (body : State → Fields → Except Flt (State × Flow)) : Answer :=
  issueWith op f s (fun _ _ => .none_) body

/-- The issue of an instruction of class J. -/
def issueJ (op : Nat) (f : JFields) (s : State) (body : State → Except Flt (State × Flow)) : Answer :=
  issueV (.cj op f) (.cj op f) s.land .none_ body

/-- The issue of an instruction of class S. -/
def issueS (op : Nat) (f : SFields) (s : State) (body : State → Except Flt (State × Flow)) : Answer :=
  issueV (.cs op f) (.cs op f) s.land .none_ body

/-- The issue of `rpt`. -/
def issueQ (f : QFields) (s : State) (body : State → Except Flt (State × Flow)) : Answer :=
  issueV (.cq f) (.cq f) s.land .none_ body

/-- The body of a gang-uniform instruction (R89): with its guard false in every active lane it is skipped whole. -/
def uniform (h : Hdr) (body : State → Except Flt (State × Flow)) (s : State) : Except Flt (State × Flow) :=
  if s.acts h then body s else .ok (s, .seq 1)

/-- What of an `.acq` wait is not over yet. -/
def State.acqLeft (s : State) : Acq :=
  let a := s.g.here.acq
  { ops := a.ops.filter fun id => s.ops.any fun o => o.id == id
    nums := a.nums.filter fun n => s.g.fx.any fun x => x.num = n }

/-- A slot held by an earlier `.acq` part does not access memory yet: it tries again each cycle while an RMW is not applied (R231), or is
held by the single access engine (R247). -/
def State.acqHold (s : State) : Option Flow :=
  let a := s.acqLeft
  if !a.nums.isEmpty then some (.later (s.cyc + 1)) else if !a.ops.isEmpty then some (.held 3 .acq) else none

/-- The issuing slot's next access waits for one more operation or RMW. -/
def State.acquire (s : State) (ops nums : List Nat) : State :=
  let a := s.acqLeft
  s.setHere { s.g.here with acq := { ops := a.ops ++ ops, nums := a.nums ++ nums } }

/-- The body of an instruction that accesses memory, after such a hold (R231, R247). -/
def memAccess (s : State) (body : State → Except Flt (State × Flow)) : Except Flt (State × Flow) :=
  match s.acqHold with
  | some fl => .ok (s, fl)
  | none => body s

/-- The state with register results in flight added. -/
def State.addPends (s : State) (ps : List Pend) : State := { s with g := s.g.addPends ps }

/-- A scalar instruction whose only effect is one register result (R89, R106). -/
def issueScalar (op : Nat) (f : Fields) (s : State) (res : State → Fields → List Pend) : Answer :=
  issueF op f s fun s f => uniform f.h (fun s => .ok (s.addPends (res s f), .seq 1)) s

/-- A lane instruction whose only effects are register results and draws (R118, R151). -/
def issueLane (op : Nat) (f : Fields) (s : State) (draws : Fields → Nat) (res : State → Fields → List Pend) : Answer :=
  issueF op f s fun s f => .ok ((s.draw f.h f.rnd (draws f)).addPends (res s f), .seq s.g.passes)

/-! ## Choosing the gang that issues -/

/-- The state with the gang of this cohort and number issuing, its slot n (R354, R357); unchanged when there is none. -/
def State.select (s : State) (cohort f2 n : Nat) : State :=
  if s.g.cohort = cohort && s.g.f2 = f2 then { s with g := { s.g with cur := n } }
  else match s.others.find? fun g => g.cohort == cohort && g.f2 == f2 with
    | none => s
    | some g =>
      { s with
        g := { g with cur := n }
        others := s.g :: s.others.filter fun x => !(x.cohort == cohort && x.f2 == f2) }

/-- The instruction at the issuing slot's PC, and its units (R43, R44). -/
def State.fetch (s : State) : List W32 := s.g.kn.units s.g.here.pc

/-- The instruction a blocked slot stands at, as a view. -/
def State.blockedView (s : State) : Option View :=
  match decode s.fetch with
  | .ok i => i.view
  | .error _ => none

/-- The state with the issuing slot of its gang set to n, everything due landed. -/
def State.atSlot (s : State) (n : Nat) : State := ({ s with g := { s.g with cur := n } } : State).land

/-- The base word and literal at the issuing slot's PC as a trap frame shows them. -/
def State.wordHere (s : State) : W64 × W64 :=
  match s.fetch with
  | lo :: hi :: rest =>
    (baseWord lo hi, match wordView (baseWord lo hi) rest with | some v => litOf v | none => 0)
  | _ => (0, 0)

/-- A trap of the instruction at which a slot is blocked or held: it has had no effect (R241, R369). -/
def trapBlocked (s : State) (e : Flt) (opreg : Nat := 0xFFFFFFFF) : State :=
  let (w, l) := s.wordHere
  let g := s.g
  let r := if g.cur = 0 then g.without0 else g.without1
  takeTrap ({ s with g := { g with regpc := r.1, regcnt := r.2 } }.setHere { g.here with block := .none }) e w l opreg

/-- A blocking instruction completes: the slot goes on past it no earlier than cycle c (R242). -/
def completeBlocked (s : State) (c : Nat) : State :=
  let x := s.g.here
  match s.blockedView with
  | some v =>
    keepRegion (s.setHere { x with pc := x.pc + v.length, next := max x.next c, block := .none })
  | none => s.setHere { x with pc := x.pc + 8, next := max x.next c, block := .none }

end Sys2Proof.Machine
end

