-- ==== Sys2Proof/Machine/Flags.lean ====
section
/-! DEFINITION. Predicates, the machine's only flags: the comparisons of class K (spec/03 R54) and their combination with another
predicate. -/
namespace Sys2Proof.Machine

open Sys2Proof

/-- An integer comparison by CMP code (R54). -/
def icmpVal (cmp : Nat) (a b : Int) : Bool :=
  match cmp with
  | 0 => a = b
  | 1 => a ≠ b
  | 2 => a < b
  | 3 => a ≤ b
  | 4 => b < a
  | _ => b ≤ a

/-- COMB of class K (R54). -/
def combine (comb : Nat) (r c : Bool) : Bool :=
  match comb with
  | 0 => r
  | 1 => r && c
  | _ => r || c

/-- Element 0 of two operands compared in a type (R54, R113, R127, R130). -/
def compareElem (t : Ty) (cmp a b : Nat) : Bool :=
  if t.isFloat then fcmpVal cmp (t.fmt.val (elemOf t a 0)) (t.fmt.val (elemOf t b 0))
  else icmpVal cmp (toInt t.signed t.width a) (toInt t.signed t.width b)

end Sys2Proof.Machine
end

