-- ==== Sys2Proof/Machine/Scalar.lean ====
section
/-! DEFINITION. The scalar instructions (spec/05 R106 to R116). -/
namespace Sys2Proof.Machine

open Sys2Proof

/-- A w-bit scalar result as the 64-bit register holds it (R107). -/
def extScalar (t : Ty) (x : Nat) : Nat :=
  if t = .i32 then ofInt 64 (toInt true 32 x) else x % 2 ^ t.width

/-- The integer that a scalar operand reads as in a type (R107). -/
def sInt (t : Ty) (x : Nat) : Int := toInt t.signed t.width x

/-- An exact integer result kept to w bits, or clamped under `.sat` (R66, R108). -/
def sKeep (t : Ty) (sat : Bool) (x : Int) : Nat := extScalar t (keepInt t.signed t.width sat x)

/-- The exact results of R108 by operation. -/
def saddVal (t : Ty) (sat : Bool) (a b : Nat) : Nat := sKeep t sat (sInt t a + sInt t b)
def ssubVal (t : Ty) (sat : Bool) (a b : Nat) : Nat := sKeep t sat (sInt t a - sInt t b)
def smulVal (t : Ty) (sat : Bool) (a b : Nat) : Nat := sKeep t sat (sInt t a * sInt t b)
def smulhVal (t : Ty) (a b : Nat) : Nat := sKeep t false (sInt t a * sInt t b / 2 ^ t.width)
def sminVal (t : Ty) (a b : Nat) : Nat := sKeep t false (min (sInt t a) (sInt t b))
def smaxVal (t : Ty) (a b : Nat) : Nat := sKeep t false (max (sInt t a) (sInt t b))
def smadVal (t : Ty) (sat : Bool) (a b c : Nat) : Nat := sKeep t sat (sInt t a * sInt t b + sInt t c)
def sselVal (a b c : Nat) : Nat := if c != 0 then a else b
def sleaVal (a b c : Nat) : Nat := (a + (if c ≥ 64 then 0 else b * 2 ^ c)) % 2 ^ 64

/-- Quotient and remainder (R109): by zero all ones and the dividend; the overflow case wraps. -/
def sdivVal (t : Ty) (a b : Nat) : Nat :=
  if sInt t b = 0 then extScalar t (2 ^ t.width - 1) else sKeep t false ((sInt t a).tdiv (sInt t b))
def sremVal (t : Ty) (a b : Nat) : Nat :=
  if sInt t b = 0 then sKeep t false (sInt t a) else sKeep t false ((sInt t a).tmod (sInt t b))

/-- Shifts (R110, R122): a value of a type by an unsigned amount. -/
def shlBits (w a n : Nat) : Nat := if n ≥ w then 0 else a * 2 ^ n % 2 ^ w
def shrBits (w a n : Nat) : Nat := if n ≥ w then 0 else a % 2 ^ w / 2 ^ n
def sraBits (w a n : Nat) : Nat :=
  let x := toInt true w a
  if n ≥ w then (if x < 0 then 2 ^ w - 1 else 0) else ofInt w (x / 2 ^ n)

/-- Bit field extract and insert over w bits, position p and width n (R111, R123). -/
def bfeBits (w : Nat) (signed : Bool) (a p n : Nat) : Nat :=
  let m := min n (w - p)
  if m = 0 then 0 else ofInt w (toInt signed m (bits a p m))
def bfiBits (w a b p n : Nat) : Nat :=
  let m := min n (w - p)
  a - bits a p m * 2 ^ p + b % 2 ^ m * 2 ^ p

/-- Number of one bits among the low w bits (R112, R124). -/
def popBits : Nat → Nat → Nat
  | 0, _ => 0
  | w + 1, a => a % 2 + popBits w (a / 2)
/-- Zero bits above the most significant one of w bits (R112, R124). -/
def clzBits (w a : Nat) : Nat := if a = 0 then w else w - 1 - a.log2
/-- Zero bits below the least significant one of w bits (R112, R124). -/
def ctzBits : Nat → Nat → Nat
  | 0, _ => 0
  | w + 1, a => if a % 2 = 1 then 0 else 1 + ctzBits w (a / 2)

/-- The sources A, B and C of a scalar form in its type. -/
def State.sa (s : State) (f : Fields) : Nat := s.sopnd f.ty f.lit f.a
def State.sb (s : State) (f : Fields) : Nat := s.sopnd f.ty f.lit f.b
def State.sc (s : State) (f : Fields) : Nat := s.sopnd f.ty f.lit f.c

/-- A shift amount: all 64 bits of B (R110). -/
def State.sAmt (s : State) (f : Fields) : Nat := s.sopnd .n64 f.lit f.b

/-- `sadd` (R108). -/
def execSadd (f : Fields) (s : State) : Answer :=
  issueScalar 0x20 f s fun s f => s.sResult 2 f.d (saddVal f.ty (f.sub % 2 = 1) (s.sa f) (s.sb f))
/-- `ssub` (R108). -/
def execSsub (f : Fields) (s : State) : Answer :=
  issueScalar 0x21 f s fun s f => s.sResult 2 f.d (ssubVal f.ty (f.sub % 2 = 1) (s.sa f) (s.sb f))
/-- `smul` (R108). -/
def execSmul (f : Fields) (s : State) : Answer :=
  issueScalar 0x22 f s fun s f => s.sResult 2 f.d (smulVal f.ty (f.sub % 2 = 1) (s.sa f) (s.sb f))
/-- `smulh` (R108). -/
def execSmulh (f : Fields) (s : State) : Answer :=
  issueScalar 0x23 f s fun s f => s.sResult 2 f.d (smulhVal f.ty (s.sa f) (s.sb f))
/-- `sdiv` (R109). -/
def execSdiv (f : Fields) (s : State) : Answer :=
  issueScalar 0x24 f s fun s f => s.sResult 2 f.d (sdivVal f.ty (s.sa f) (s.sb f))
/-- `srem` (R109). -/
def execSrem (f : Fields) (s : State) : Answer :=
  issueScalar 0x25 f s fun s f => s.sResult 2 f.d (sremVal f.ty (s.sa f) (s.sb f))
/-- `sand` (R108). -/
def execSand (f : Fields) (s : State) : Answer :=
  issueScalar 0x26 f s fun s f => s.sResult 2 f.d (s.sa f &&& s.sb f)
/-- `sor` (R108). -/
def execSor (f : Fields) (s : State) : Answer :=
  issueScalar 0x27 f s fun s f => s.sResult 2 f.d (s.sa f ||| s.sb f)
/-- `sxor` (R108). -/
def execSxor (f : Fields) (s : State) : Answer :=
  issueScalar 0x28 f s fun s f => s.sResult 2 f.d (s.sa f ^^^ s.sb f)
/-- `sshl` (R110). -/
def execSshl (f : Fields) (s : State) : Answer :=
  issueScalar 0x29 f s fun s f => s.sResult 2 f.d (extScalar f.ty (shlBits f.ty.width (s.sa f) (s.sAmt f)))
/-- `sshr` (R110). -/
def execSshr (f : Fields) (s : State) : Answer :=
  issueScalar 0x2A f s fun s f => s.sResult 2 f.d (extScalar f.ty (shrBits f.ty.width (s.sa f) (s.sAmt f)))
/-- `ssra` (R110). -/
def execSsra (f : Fields) (s : State) : Answer :=
  issueScalar 0x2B f s fun s f => s.sResult 2 f.d (extScalar f.ty (sraBits f.ty.width (s.sa f) (s.sAmt f)))
/-- `smin` (R108). -/
def execSmin (f : Fields) (s : State) : Answer :=
  issueScalar 0x2C f s fun s f => s.sResult 2 f.d (sminVal f.ty (s.sa f) (s.sb f))
/-- `smax` (R108). -/
def execSmax (f : Fields) (s : State) : Answer :=
  issueScalar 0x2D f s fun s f => s.sResult 2 f.d (smaxVal f.ty (s.sa f) (s.sb f))
/-- `scmp` (R113): one gang-wide truth value, combined with each performing lane's pC. -/
def execScmp (f : Fields) (s : State) : Answer :=
  issueScalar 0x2E f s fun s f =>
    let r := compareElem f.ty f.cmp (s.sa f) (s.sb f)
    s.predResults (s.performing f.h) f.d (fun _ => s.cyc) 2 fun k =>
      combine f.comb r (s.opnd .b32 .none s.cyc k (.ofCode f.c.toNat) != 0)
/-- `ssel` (R108). -/
def execSsel (f : Fields) (s : State) : Answer :=
  issueScalar 0x2F f s fun s f => s.sResult 2 f.d (sselVal (s.sa f) (s.sb f) (s.sc f))
/-- `smov` (R108). -/
def execSmov (f : Fields) (s : State) : Answer :=
  issueScalar 0x30 f s fun s f => s.sResult 2 f.d (extScalar f.ty (s.sa f))
/-- `sbfe` (R111). -/
def execSbfe (f : Fields) (s : State) : Answer :=
  issueScalar 0x31 f s fun s f =>
    s.sResult 2 f.d (bfeBits 64 f.ty.signed (s.sa f) (bits (s.sb f) 0 6) (bits (s.sb f) 8 7))
/-- `sbfi` (R111). -/
def execSbfi (f : Fields) (s : State) : Answer :=
  issueScalar 0x32 f s fun s f =>
    s.sResult 2 f.d (bfiBits 64 (s.sa f) (s.sb f) (bits (s.sc f) 0 6) (bits (s.sc f) 8 7))
/-- `spopc` (R112). -/
def execSpopc (f : Fields) (s : State) : Answer :=
  issueScalar 0x33 f s fun s f => s.sResult 2 f.d (popBits f.ty.width (s.sa f))
/-- `sclz` (R112). -/
def execSclz (f : Fields) (s : State) : Answer :=
  issueScalar 0x34 f s fun s f => s.sResult 2 f.d (clzBits f.ty.width (s.sa f))
/-- `sctz` (R112). -/
def execSctz (f : Fields) (s : State) : Answer :=
  issueScalar 0x35 f s fun s f => s.sResult 2 f.d (ctzBits f.ty.width (s.sa f))
/-- `smad` (R108). -/
def execSmad (f : Fields) (s : State) : Answer :=
  issueScalar 0x3A f s fun s f => s.sResult 2 f.d (smadVal f.ty (f.sub % 2 = 1) (s.sa f) (s.sb f) (s.sc f))
/-- `slea` (R108). -/
def execSlea (f : Fields) (s : State) : Answer :=
  issueScalar 0x3B f s fun s f => s.sResult 2 f.d (sleaVal (s.sa f) (s.sb f) (s.sc f))

/-! ## Lane words (R116) -/

/-- The lane that `rdlane` and `wrlane` name. -/
def State.lane16 (s : State) (f : Fields) : Nat := s.sopnd .n64 f.lit f.b % s.g.size

/-- `rdlane` (R116): v as it stands in lane k, active or not. -/
def execRdlane (f : Fields) (s : State) : Answer :=
  issueScalar 0x38 f s fun s f =>
    s.sResult 4 f.d (extScalar f.ty (s.vregs s.cyc (s.lane16 f) f.a.toNat f.ty.regs))
/-- `wrlane` (R116): only lane k, when it is active and its guard true; the l file shifts in every active lane. -/
def execWrlane (f : Fields) (s : State) : Answer :=
  issueScalar 0x39 f s fun s f =>
    s.resultsBy (fun _ => s.cyc) (fun k => k = s.lane16 f && s.guard f.h k) f.d f.ty.regs 4 fun _ => s.sa f

/-! ## Scratchpad words (R114) -/

/-- The address update that `sld` and `sst` make when they are skipped (R89, R114). -/
def skipAccess (h : Hdr) (f : Fields) (body : State → Except Flt (State × Flow)) (s : State) : Except Flt (State × Flow) :=
  if s.acts h then body s else .ok (s.addPends (s.postInc 0 f), .seq 1)

/-- A scratchpad store in flight. -/
def State.store (s : State) (due core addr : Nat) (bs : List Byte) : Fx :=
  { due := due, slot := s.g.tag, core := core, addr := addr, len := bs.length, deps := [], op := .store bs, num := s.draws + 1 }

/-- The access of `sld` and `sst`. -/
def State.wordAcc (s : State) (f : Fields) : Acc := s.linAcc 0 (s.addr f s.cyc 0) (f.ty.width / 8)

/-- `sld` (R114): one word of the pair's scratchpad. -/
def execSld (f : Fields) (s : State) : Answer :=
  issueF 0x36 f s fun s f => skipAccess f.h f (fun s => memAccess s fun s => do
    let n := f.ty.width / 8
    s.checkAccs [s.wordAcc f] n .read false
    let s := s.settle [(s.wordAcc f).span s.coh n]
    let w := leNat (s.slotRead ((s.wordAcc f).span s.coh n))
    .ok (s.addPends (s.sResult (s.latency (.cf 0x36 f)) f.d (extScalar f.ty w) ++ s.postInc 0 f), .seq 1)) s

/-- `sst` (R114): the low bytes of sD. -/
def execSst (f : Fields) (s : State) : Answer :=
  issueF 0x37 f s fun s f => skipAccess f.h f (fun s => memAccess s fun s => do
    let n := f.ty.width / 8
    s.checkAccs [s.wordAcc f] n .write false
    let due := s.cyc + s.latency (.cf 0x37 f)
    let fx := s.store due (s.wordAcc f).core ((s.wordAcc f).addr s.coh) (leBytes n (s.sreg s.cyc (sIdx f.d)).toNat)
    .ok ((s.addFxs [fx]).addPends (s.postInc 0 f), .seq 1)) s

end Sys2Proof.Machine
end

