-- ==== Sys2Proof/Machine/LaneInt.lean ====
section
/-! DEFINITION. The lane integer instructions (spec/06 R121 to R127). Each computes element by element and writes the performing
lanes; the l file shifts (R118). -/
namespace Sys2Proof.Machine

open Sys2Proof

/-- The sources of a lane form in lane k. -/
def State.la (s : State) (f : Fields) (k : Nat) : Nat := s.lopnd f.ty f.lit k f.a
def State.lb (s : State) (f : Fields) (k : Nat) : Nat := s.lopnd f.ty f.lit k f.b
def State.lc (s : State) (f : Fields) (k : Nat) : Nat := s.lopnd f.ty f.lit k f.c

/-- An operation on the elements of one, two or three operands. -/
def elems1 (t : Ty) (op : Nat → Nat) (a : Nat) : Nat := ofElems t fun e => op (elemOf t a e)
def elems2 (t : Ty) (op : Nat → Nat → Nat) (a b : Nat) : Nat := ofElems t fun e => op (elemOf t a e) (elemOf t b e)
def elems3 (t : Ty) (op : Nat → Nat → Nat → Nat) (a b c : Nat) : Nat :=
  ofElems t fun e => op (elemOf t a e) (elemOf t b e) (elemOf t c e)

/-- An element as an integer of its type (R66). -/
def eInt (t : Ty) (x : Nat) : Int := toInt t.signed t.width x
/-- An exact integer as an element (R66). -/
def eKeep (t : Ty) (sat : Bool) (x : Int) : Nat := keepInt t.signed t.width sat x

/-- The exact element results of R121. -/
def addElem (t : Ty) (sat : Bool) (a b : Nat) : Nat := eKeep t sat (eInt t a + eInt t b)
def subElem (t : Ty) (sat : Bool) (a b : Nat) : Nat := eKeep t sat (eInt t a - eInt t b)
def mulElem (t : Ty) (sat : Bool) (a b : Nat) : Nat := eKeep t sat (eInt t a * eInt t b)
def mulhElem (t : Ty) (a b : Nat) : Nat := eKeep t false (eInt t a * eInt t b / 2 ^ t.width)
def madElem (t : Ty) (sat : Bool) (a b c : Nat) : Nat := eKeep t sat (eInt t a * eInt t b + eInt t c)
def minElem (t : Ty) (a b : Nat) : Nat := eKeep t false (min (eInt t a) (eInt t b))
def maxElem (t : Ty) (a b : Nat) : Nat := eKeep t false (max (eInt t a) (eInt t b))
def absElem (t : Ty) (sat : Bool) (a : Nat) : Nat := eKeep t sat (eInt t a).natAbs
def negElem (t : Ty) (sat : Bool) (a : Nat) : Nat := eKeep t sat (-(eInt t a))

/-- Rotation left by n mod w (R122). -/
def rotlBits (w a n : Nat) : Nat := let m := n % w; (a * 2 ^ m % 2 ^ w) + a / 2 ^ (w - m)

/-- The low w bits in reverse order (R124). -/
def brevBits (w a : Nat) : Nat := (List.range w).foldl (fun r i => r + (a / 2 ^ i % 2) * 2 ^ (w - 1 - i)) 0

/-- `dot4` (R126): c has the 32-bit type of the elements' signedness. -/
def dot4Val (t : Ty) (sat : Bool) (a b c : Nat) : Nat :=
  let x := (List.range 4).foldl (fun (r : Int) e => r + eInt t (elemOf t a e) * eInt t (elemOf t b e))
    (toInt t.signed 32 c)
  keepInt t.signed 32 sat x

/-- `lea` (R126): the term is 0 when c ≥ w. -/
def leaVal (w a b c : Nat) : Nat := (a + (if c ≥ w then 0 else b * 2 ^ c)) % 2 ^ w

/-- `prmt` (R126). -/
def prmtVal (a b c : Nat) : Nat :=
  (List.range 4).foldl (fun d i =>
    let sl := bits c (4 * i) 4
    let y := bits (a + b * 2 ^ 32) (8 * (sl % 8)) 8
    let y := if sl ≥ 8 then (if y ≥ 128 then 0xFF else 0) else y
    d + y * 2 ^ (8 * i)) 0

/-- A lane integer instruction of the type of its result (R121): latency 4. -/
def issueInt (op : Nat) (f : Fields) (s : State) (val : State → Fields → Nat → Nat) : Answer :=
  issueLane op f s (fun _ => 0) fun s f => s.laneResults f.h f.d f.ty.regs 4 (val s f)

/-- `add` (R121). -/
def execAdd (f : Fields) (s : State) : Answer :=
  issueInt 0x40 f s fun s f k => elems2 f.ty (addElem f.ty (f.sub % 2 = 1)) (s.la f k) (s.lb f k)
/-- `sub` (R121). -/
def execSub (f : Fields) (s : State) : Answer :=
  issueInt 0x41 f s fun s f k => elems2 f.ty (subElem f.ty (f.sub % 2 = 1)) (s.la f k) (s.lb f k)
/-- `mul` (R121). -/
def execMul (f : Fields) (s : State) : Answer :=
  issueInt 0x42 f s fun s f k => elems2 f.ty (mulElem f.ty (f.sub % 2 = 1)) (s.la f k) (s.lb f k)
/-- `mulh` (R121). -/
def execMulh (f : Fields) (s : State) : Answer :=
  issueInt 0x43 f s fun s f k => elems2 f.ty (mulhElem f.ty) (s.la f k) (s.lb f k)
/-- `mad` (R121). -/
def execMad (f : Fields) (s : State) : Answer :=
  issueInt 0x44 f s fun s f k => elems3 f.ty (madElem f.ty (f.sub % 2 = 1)) (s.la f k) (s.lb f k) (s.lc f k)
/-- `min` (R121). -/
def execMin (f : Fields) (s : State) : Answer :=
  issueInt 0x45 f s fun s f k => elems2 f.ty (minElem f.ty) (s.la f k) (s.lb f k)
/-- `max` (R121). -/
def execMax (f : Fields) (s : State) : Answer :=
  issueInt 0x46 f s fun s f k => elems2 f.ty (maxElem f.ty) (s.la f k) (s.lb f k)
/-- `abs` (R121). -/
def execAbs (f : Fields) (s : State) : Answer :=
  issueInt 0x47 f s fun s f k => elems1 f.ty (absElem f.ty (f.sub % 2 = 1)) (s.la f k)
/-- `neg` (R121). -/
def execNeg (f : Fields) (s : State) : Answer :=
  issueInt 0x48 f s fun s f k => elems1 f.ty (negElem f.ty (f.sub % 2 = 1)) (s.la f k)
/-- `and` (R121). -/
def execAnd (f : Fields) (s : State) : Answer := issueInt 0x49 f s fun s f k => s.la f k &&& s.lb f k
/-- `or` (R121). -/
def execOr (f : Fields) (s : State) : Answer := issueInt 0x4A f s fun s f k => s.la f k ||| s.lb f k
/-- `xor` (R121). -/
def execXor (f : Fields) (s : State) : Answer := issueInt 0x4B f s fun s f k => s.la f k ^^^ s.lb f k
/-- `not` (R121). -/
def execNot (f : Fields) (s : State) : Answer := issueInt 0x4C f s fun s f k => 2 ^ f.ty.width - 1 - s.la f k
/-- `shl` (R122). -/
def execShl (f : Fields) (s : State) : Answer :=
  issueInt 0x4D f s fun s f k => elems2 f.ty (shlBits f.ty.width) (s.la f k) (s.lb f k)
/-- `shr` (R122). -/
def execShr (f : Fields) (s : State) : Answer :=
  issueInt 0x4E f s fun s f k => elems2 f.ty (shrBits f.ty.width) (s.la f k) (s.lb f k)
/-- `sra` (R122). -/
def execSra (f : Fields) (s : State) : Answer :=
  issueInt 0x4F f s fun s f k => elems2 f.ty (sraBits f.ty.width) (s.la f k) (s.lb f k)
/-- `rotl` (R122). -/
def execRotl (f : Fields) (s : State) : Answer :=
  issueInt 0x50 f s fun s f k => rotlBits f.ty.width (s.la f k) (s.lb f k)
/-- `bfe` (R123). -/
def execBfe (f : Fields) (s : State) : Answer :=
  issueInt 0x51 f s fun s f k =>
    bfeBits 32 f.ty.signed (s.la f k) (bits (s.lb f k) 0 5) (bits (s.lb f k) 8 6)
/-- `bfi` (R123). -/
def execBfi (f : Fields) (s : State) : Answer :=
  issueInt 0x52 f s fun s f k =>
    bfiBits 32 (s.la f k) (s.lb f k) (bits (s.lc f k) 0 5) (bits (s.lc f k) 8 6)

/-- A count of bits (R124): one register, whatever the source type. -/
def issueCount (op : Nat) (f : Fields) (s : State) (val : Ty → Nat → Nat) : Answer :=
  issueLane op f s (fun _ => 0) fun s f => s.laneResults f.h f.d 1 4 fun k => val f.ty (s.la f k)

/-- `popc` (R124). -/
def execPopc (f : Fields) (s : State) : Answer := issueCount 0x53 f s fun t a => popBits t.width a
/-- `clz` (R124). -/
def execClz (f : Fields) (s : State) : Answer := issueCount 0x54 f s fun t a => clzBits t.width a
/-- `ctz` (R124). -/
def execCtz (f : Fields) (s : State) : Answer := issueCount 0x55 f s fun t a => ctzBits t.width a
/-- `brev` (R124). -/
def execBrev (f : Fields) (s : State) : Answer := issueInt 0x56 f s fun s f k => brevBits f.ty.width (s.la f k)
/-- `sel` (R125). -/
def execSel (f : Fields) (s : State) : Answer :=
  issueInt 0x57 f s fun s f k => if s.popnd k f.c then s.la f k else s.lb f k
/-- `icmp` (R127): the l file does not shift. -/
def execIcmp (f : Fields) (s : State) : Answer :=
  issueLane 0x58 f s (fun _ => 0) fun s f => s.predResults (s.lperforming f.h) f.d s.laneCyc 4 fun k =>
    combine f.comb (compareElem f.ty f.cmp (s.la f k) (s.lb f k)) (s.popnd k f.c)
/-- `mov` (R125). -/
def execMov (f : Fields) (s : State) : Answer := issueInt 0x59 f s fun s f k => s.la f k
/-- `dot4` (R126). -/
def execDot4 (f : Fields) (s : State) : Answer :=
  issueInt 0x5A f s fun s f k => dot4Val f.ty (f.sub % 2 = 1) (s.la f k) (s.lb f k)
    (s.lopnd (if f.ty.signed then .i32 else .n32) f.lit k f.c)
/-- `lea` (R126): c is read from bits <31:0>. -/
def execLea (f : Fields) (s : State) : Answer :=
  issueInt 0x5B f s fun s f k => leaVal f.ty.width (s.la f k) (s.lb f k) (s.lopnd .n32 f.lit k f.c)
/-- `prmt` (R126). -/
def execPrmt (f : Fields) (s : State) : Answer :=
  issueInt 0x5C f s fun s f k => prmtVal (s.la f k) (s.lb f k) (s.lc f k)

end Sys2Proof.Machine
end

