-- ==== Sys2Proof/Machine/LaneFloat.lean ====
section
/-! DEFINITION. The lane float instructions and conversions (spec/06 R128 to R138). -/
namespace Sys2Proof.Machine

open Sys2Proof

/-- A float instruction element by element (R128): op takes the element number, for the draw of that element. A rounding form draws
once per element (R73); latency lat. -/
def issueFloat (op : Nat) (lat : Nat) (rounds : Bool) (f : Fields) (s : State)
    (val : State → Fields → Nat → Nat → Nat) : Answer :=
  issueLane op f s (fun f => if rounds then f.ty.elems else 0) fun s f =>
    s.laneResults f.h f.d 1 lat fun k => ofElems f.ty fun e => val s f k e

/-- Element e of a source in lane k as a value. -/
def State.fa (s : State) (f : Fields) (k e : Nat) : FV := f.ty.fmt.val (elemOf f.ty (s.la f k) e)
def State.fb (s : State) (f : Fields) (k e : Nat) : FV := f.ty.fmt.val (elemOf f.ty (s.lb f k) e)
def State.fc (s : State) (f : Fields) (k e : Nat) : FV := f.ty.fmt.val (elemOf f.ty (s.lc f k) e)

/-- round_F in the instruction's mode with the draw of element e (R70, R73). -/
def State.rnd (s : State) (f : Fields) (k e : Nat) (x : FV) : Nat :=
  roundFV f.ty.fmt f.rnd false x (rho f.rnd (s.zOf k) e)

/-- `fadd` (R128). -/
def execFadd (f : Fields) (s : State) : Answer :=
  issueFloat 0x70 6 true f s fun s f k e => s.rnd f k e (FV.add f.rnd (s.fa f k e) (s.fb f k e))
/-- `fsub` (R128). -/
def execFsub (f : Fields) (s : State) : Answer :=
  issueFloat 0x71 6 true f s fun s f k e => s.rnd f k e (FV.add f.rnd (s.fa f k e) (s.fb f k e).neg)
/-- `fmul` (R128). -/
def execFmul (f : Fields) (s : State) : Answer :=
  issueFloat 0x72 6 true f s fun s f k e => s.rnd f k e (FV.mul (s.fa f k e) (s.fb f k e))
/-- `fma` (R128, R76): one rounding. -/
def execFma (f : Fields) (s : State) : Answer :=
  issueFloat 0x73 6 true f s fun s f k e =>
    s.rnd f k e (FV.add f.rnd (FV.mul (s.fa f k e) (s.fb f k e)) (s.fc f k e))
/-- `fmin` (R129). -/
def execFmin (f : Fields) (s : State) : Answer :=
  issueFloat 0x74 6 false f s fun s f k e =>
    fminmax f.ty.fmt false (f.sub = 1) (elemOf f.ty (s.la f k) e) (elemOf f.ty (s.lb f k) e)
/-- `fmax` (R129). -/
def execFmax (f : Fields) (s : State) : Answer :=
  issueFloat 0x75 6 false f s fun s f k e =>
    fminmax f.ty.fmt true (f.sub = 1) (elemOf f.ty (s.la f k) e) (elemOf f.ty (s.lb f k) e)
/-- `fabs` (R128). -/
def execFabs (f : Fields) (s : State) : Answer :=
  issueFloat 0x76 6 false f s fun s f k e => elemOf f.ty (s.la f k) e % 2 ^ (f.ty.width - 1)
/-- `fneg` (R128). -/
def execFneg (f : Fields) (s : State) : Answer :=
  issueFloat 0x77 6 false f s fun s f k e => elemOf f.ty (s.la f k) e ^^^ 2 ^ (f.ty.width - 1)
/-- `fcmp` (R130). -/
def execFcmp (f : Fields) (s : State) : Answer :=
  issueLane 0x78 f s (fun _ => 0) fun s f => s.predResults (s.lperforming f.h) f.d s.laneCyc 6 fun k =>
    combine f.comb (compareElem f.ty f.cmp (s.la f k) (s.lb f k)) (s.popnd k f.c)
/-- `fclass` (R131). -/
def execFclass (f : Fields) (s : State) : Answer :=
  issueFloat 0x79 6 false f s fun s f k e => fclassMask f.ty.fmt (elemOf f.ty (s.la f k) e)

/-- A special function (R132, R133): latency 16. -/
def issueSpecial (op : Nat) (f : Fields) (s : State) : Answer :=
  issueFloat op 16 true f s fun s f k e =>
    specialFn f.ty.fmt op f.rnd (elemOf f.ty (s.la f k) e) (rho f.rnd (s.zOf k) e)

/-- `rcp` (R132). -/
def execRcp (f : Fields) (s : State) : Answer := issueSpecial 0x7A f s
/-- `rsqrt` (R132). -/
def execRsqrt (f : Fields) (s : State) : Answer := issueSpecial 0x7B f s
/-- `sqrt` (R132). -/
def execSqrt (f : Fields) (s : State) : Answer := issueSpecial 0x7C f s
/-- `ex2` (R132). -/
def execEx2 (f : Fields) (s : State) : Answer := issueSpecial 0x7D f s
/-- `lg2` (R132). -/
def execLg2 (f : Fields) (s : State) : Answer := issueSpecial 0x7E f s
/-- `sinpi` (R132). -/
def execSinpi (f : Fields) (s : State) : Answer := issueSpecial 0x7F f s
/-- `cospi` (R132). -/
def execCospi (f : Fields) (s : State) : Answer := issueSpecial 0x80 f s

/-- `frnd` (R134). -/
def execFrnd (f : Fields) (s : State) : Answer :=
  issueFloat 0x81 6 true f s fun s f k e =>
    frndVal f.ty.fmt f.rnd (elemOf f.ty (s.la f k) e) (rho f.rnd (s.zOf k) e)
/-- `frac` (R134). -/
def execFrac (f : Fields) (s : State) : Answer :=
  issueFloat 0x82 6 true f s fun s f k e =>
    fracVal f.ty.fmt f.rnd (elemOf f.ty (s.la f k) e) (rho f.rnd (s.zOf k) e)
/-- `ldexp` (R134): b is read as i32 and applies to every element. -/
def execLdexp (f : Fields) (s : State) : Answer :=
  issueFloat 0x83 6 true f s fun s f k e =>
    ldexpVal f.ty.fmt f.rnd (elemOf f.ty (s.la f k) e) (toInt true 32 (s.lopnd .i32 f.lit k f.b))
      (rho f.rnd (s.zOf k) e)

/-! ## Conversions (R136 to R138) -/

/-- The source type of `cvt` (R53). -/
def srcTy (f : Fields) : Ty := .ofCode (bits f.b.toNat 0 4)

/-- The lesser element count of the two types (R137). -/
def cvtCount (dt st : Ty) : Nat := min st.elems dt.elems

/-- The value that `cvt` leaves in D (R137): old holds D as it stood. -/
def cvtVal (dt st : Ty) (rm : Nat) (sat : Bool) (sel old a : Nat) (r : Nat → Nat) : Nat :=
  let c := cvtCount dt st
  if st.elems > dt.elems || st.elems = dt.elems then
    (List.range c).foldl (fun t i =>
      t + convElem dt st rm sat (elemOf st a (c * sel + i)) (r i) * 2 ^ (dt.width * i)) 0
  else
    (List.range dt.elems).foldl (fun t i =>
      let x := if c * sel ≤ i && i < c * sel + c
        then convElem dt st rm sat (elemOf st a (i - c * sel)) (r (i - c * sel)) else elemOf dt old i
      t + x * 2 ^ (dt.width * i)) 0

/-- D as it stands in lane k, for a conversion that keeps some of its elements. -/
def State.oldD (s : State) (f : Fields) (k : Nat) : Nat := s.lopnd f.ty .none k f.d

/-- `cvt` (R136, R137). -/
def execCvt (f : Fields) (s : State) : Answer :=
  issueLane 0x84 f s (fun f => cvtCount f.ty (srcTy f)) fun s f =>
    s.laneResults f.h f.d f.ty.regs 6 fun k =>
      cvtVal f.ty (srcTy f) f.rnd (f.sub % 2 = 1) (bits f.sub 1 2) (s.oldD f k) (s.lopnd (srcTy f) f.lit k f.a)
        (rho f.rnd (s.zOf k))

/-- The residual register of `cvtef` in the performing lanes (R138). -/
def State.residuals (s : State) (f : Fields) : List Pend :=
  (s.lperforming f.h).map fun k =>
    let a := s.lopnd .f32 f.lit k f.a
    let n := convElem f.ty .f32 f.rnd (f.sub % 2 = 1) a (rho f.rnd (s.zOf k) 0)
    s.result (s.laneCyc k + 6) (.v k f.c.toNat) (residual f.ty a n)

/-- `cvtef` (R138). -/
def execCvtef (f : Fields) (s : State) : Answer :=
  issueLane 0x85 f s (fun _ => 1) fun s f =>
    s.laneResults f.h f.d 1 6 (fun k =>
      cvtVal f.ty .f32 f.rnd (f.sub % 2 = 1) (bits f.sub 1 2) (s.oldD f k) (s.lopnd .f32 f.lit k f.a)
        (rho f.rnd (s.zOf k))) ++ s.residuals f

/-- `fdot2` (R135): two products and c, one rounding to f32. -/
def execFdot2 (f : Fields) (s : State) : Answer :=
  issueLane 0x86 f s (fun _ => 1) fun s f =>
    s.laneResults f.h f.d 1 6 fun k =>
      let p (e : Nat) : FV := FV.mul (s.fa f k e) (s.fb f k e)
      let c := Ty.f32.fmt.val (s.lopnd .f32 f.lit k f.c)
      roundFV Ty.f32.fmt f.rnd false (FV.add f.rnd (FV.add f.rnd (p 0) (p 1)) c) (rho f.rnd (s.zOf k) 0)

end Sys2Proof.Machine
end

