-- ==== Sys2Proof/Machine/Pred.lean ====
section
/-! DEFINITION. The predicate instructions of one lane (spec/06 R139, R140). `vote` and `elect` act across lanes and stand with the
grid instructions. -/
namespace Sys2Proof.Machine

open Sys2Proof

/-- A combination of two predicates in the performing lanes (R139): latency 2, no shift of the l file. -/
def issuePred (op : Nat) (f : Fields) (s : State) (val : Bool → Bool → Bool) : Answer :=
  issueLane op f s (fun _ => 0) fun s f => s.predResults (s.lperforming f.h) f.d s.laneCyc 2 fun k =>
    val (s.popnd k f.a) (s.popnd k f.b)

/-- `pand` (R139). -/
def execPand (f : Fields) (s : State) : Answer := issuePred 0x90 f s fun a b => a && b
/-- `por` (R139). -/
def execPor (f : Fields) (s : State) : Answer := issuePred 0x91 f s fun a b => a || b
/-- `pxor` (R139). -/
def execPxor (f : Fields) (s : State) : Answer := issuePred 0x92 f s fun a b => a != b
/-- `pnot` (R139). -/
def execPnot (f : Fields) (s : State) : Answer :=
  issueLane 0x93 f s (fun _ => 0) fun s f => s.predResults (s.lperforming f.h) f.d s.laneCyc 2 fun k => !(s.popnd k f.a)
/-- `pset` (R140). -/
def execPset (f : Fields) (s : State) : Answer :=
  issueLane 0x94 f s (fun _ => 0) fun s f => s.predResults (s.lperforming f.h) f.d s.laneCyc 2 fun k => s.la f k != 0
/-- `pget` (R140). -/
def execPget (f : Fields) (s : State) : Answer :=
  issueLane 0x95 f s (fun _ => 0) fun s f => s.laneResults f.h f.d 1 2 fun k =>
    if s.popnd k f.a then (if f.sub = 1 then 0xFFFFFFFF else 1) else 0

end Sys2Proof.Machine
end

