-- ==== Sys2Proof/Machine/LaneMem.lean ====
section
/-! DEFINITION. Lane accesses to scratchpad: `ldl`, `stl` (spec/06 R141 to R145), `ldx`, `stx` and `atoms` (spec/11 R226 to R231),
and `kset` (spec/06 R145). -/
namespace Sys2Proof.Machine

open Sys2Proof

/-- The bytes of an access type (R141). -/
def accBytes (t : Ty) : Nat := t.width / 8

/-- The value stored by lane k, low bytes of D (R141). -/
def State.storeVal (s : State) (f : Fields) (k : Nat) : List Byte :=
  let x := match Opnd.ofCode f.d.toNat with
    | .v n => s.vregs (s.laneCyc k) k n f.ty.regs
    | .s n => (s.sreg (s.laneCyc k) n).toNat
    | _ => 0
  leBytes (accBytes f.ty) x

/-- The first register of a lane's destination. -/
def State.destTgt (s : State) (k : Nat) (code : BitVec 9) : Tgt :=
  match Opnd.ofCode code.toNat with
  | .o n => .o k s.g.bank n
  | _ => .v k code.toNat

/-- The read of a later pass (R151, R233). -/
def State.laterLoad (s : State) (f : Fields) (n : Nat) (x : Acc) : Load :=
  { at_ := s.laneCyc x.k, slot := s.g.tag, num := s.draws + 1, tgt := s.destTgt x.k f.d, core := x.core, addr := x.addr s.coh, len := n, ty := f.ty }

/-- A load in the performing lanes: acc gives a lane's access (R142, R227). Pass 0 reads now, pass j at t + j (R151). -/
def loadLanes (op : Nat) (s : State) (f : Fields) (acc : Nat → Acc) : Except Flt (State × Flow) := do
  let n := accBytes f.ty
  let xs := (s.lperforming f.h).map acc
  s.checkAccs xs n .read true
  let c := s.coh
  let s := s.settle (xs.map (Acc.span c n))
  let seen := s.asSeen
  let lat := s.latency (.cf op f)
  let res := (s.laneResults f.h f.d f.ty.regs lat fun k => loadExt f.ty (leNat (seen.padRead ((acc k).span c n)))).map fun p =>
    if s.cyc + lat < p.due && p.keep.isNone then { p with rmw := s.draws + 1 } else p
  let s' := s.addPends (res ++ s.postInc gangLane f)
  let later := (xs.filter fun x => s.g.pass x.k != 0).map (s.laterLoad f n)
  .ok ({ s' with g := { s'.g with loads := s'.g.loads ++ later } }, .seq s.g.passes)

/-- When several lanes store to the same bytes exactly one leaves its value (R222, R227); which one is a free choice. -/
def State.winner (s : State) (xs : List Acc) (c : Cohort) (x : Acc) : Bool :=
  let same := xs.filter fun y => y.core = x.core && y.addr c = x.addr c
  (same.getD (Config.free s.draws (drawIdx (same.headD x).k 460) % same.length) x).k = x.k

/-- A store in the performing lanes (R142, R227). -/
def storeLanes (op : Nat) (s : State) (f : Fields) (acc : Nat → Acc) : Except Flt (State × Flow) := do
  let n := accBytes f.ty
  let xs := (s.lperforming f.h).map acc
  s.checkAccs xs n .write true
  let lat := s.latency (.cf op f)
  let c := s.coh
  let fxs := (xs.filter (s.winner xs c)).map fun x => s.store (s.laneCyc x.k + lat) x.core (x.addr c) (s.storeVal f x.k)
  .ok ((s.addFxs fxs).addPends (s.postInc gangLane f), .seq s.g.passes)

/-- The access of lane k to its own memory. -/
def State.ldlAcc (s : State) (f : Fields) (k : Nat) : Acc := s.viewAcc k (s.addr f (s.laneCyc k) k) (accBytes f.ty)
/-- The access of lane k to the pair's scratchpad. -/
def State.ldxAcc (s : State) (f : Fields) (k : Nat) : Acc := s.linAcc k (s.addr f (s.laneCyc k) k) (accBytes f.ty)

/-- `ldl` (R142). -/
def execLdl (f : Fields) (s : State) : Answer := issueF 0xC0 f s fun s f => memAccess s fun s => loadLanes 0xC0 s f (s.ldlAcc f)
/-- `stl` (R142). -/
def execStl (f : Fields) (s : State) : Answer := issueF 0xC1 f s fun s f => memAccess s fun s => storeLanes 0xC1 s f (s.ldlAcc f)

/-- `ldx` (R227). -/
def execLdx (f : Fields) (s : State) : Answer := issueF 0xC2 f s fun s f => memAccess s fun s => loadLanes 0xC2 s f (s.ldxAcc f)
/-- `stx` (R227). -/
def execStx (f : Fields) (s : State) : Answer := issueF 0xC3 f s fun s f => memAccess s fun s => storeLanes 0xC3 s f (s.ldxAcc f)

/-! ## Order kinds of the scratchpad atomics and barriers (R215, R231) -/

/-- The order kinds with a release part, and those with an acquire part (R215). -/
def ordRel (o : Nat) : Bool := o = 2 || o = 3 || o = 4
def ordAcq (o : Nat) : Bool := o = 1 || o = 3 || o = 4

/-- The single global accesses under a slot tag of the issuing gang that are not performed (R233); reads are those that a `.acq` fence
covers (R428). -/
def State.slotOps (s : State) (slot : Nat) (readsOnly : Bool) : List Nat :=
  (s.ops.filter fun o => o.eng = 3 && o.cohort = s.g.cohort && o.f2 = s.g.f2 && o.slot = slot && !o.performed &&
    (!readsOnly || bits o.word.toNat 56 8 != 0xD1)).map (·.id)

/-- The effect in flight of `atoms` in lane k, on the access x: a D that lands before the RMW is applied has its place fixed (R230, R231). -/
def State.atomFx (s : State) (f : Fields) (x : Acc) (k : Nat) : Fx :=
  let aop := f.osub
  let n := aopBytes aop
  let ty : Ty := if aop = 1 then .i64 else if n = 8 then .n64 else if aopTy aop = .f32 then .f32 else .n32
  let due := s.laneCyc k + s.latency (.cf 0xC4 f)
  { due := due, slot := s.g.tag, core := x.core, addr := x.addr s.coh, len := n
    deps := if ordRel f.ord then s.slotOps s.g.tag false else [], num := s.draws + 1, rel := ordRel f.ord, ret := due
    op := .atom aop (BitVec.ofNat 64 (s.lopnd ty f.lit k f.c)) (BitVec.ofNat 64 (s.vregs (s.laneCyc k) k f.d.toNat (n / 4))) k f.d.toNat }

/-- Whether a `.rel` part holds an RMW of latency lat back: a single access of the slot that is not performed, or a scratchpad effect of it that is
overdue, waits for one, or is due later than the RMW (R231, R233, log 32). -/
def State.relHeld (s : State) (lat : Nat) : Bool :=
  !(s.slotOps s.g.tag false).isEmpty ||
  s.g.fx.any fun x => x.slot = s.g.tag && (x.due ≤ s.cyc || s.cyc + lat < x.due || x.deps.any s.opOpen)

/-- `atoms` (R230): one RMW a lane, in lane order. What D receives is known when the place of the RMW is. -/
def atomsBody (s : State) (f : Fields) : Except Flt (State × Flow) := do
  let n := aopBytes f.osub
  let acc (k : Nat) : Acc := s.linAcc k (s.oaddr f (s.laneCyc k) k) n
  let ks := s.lperforming f.h
  s.checkAccs (ks.map acc) n .rmw true
  let res := (s.laneResults f.h f.d (n / 4) (s.latency (.cf 0xC4 f)) fun _ => 0).map fun p =>
    if p.keep.isSome then p else { p with rmw := s.draws + 1 }
  let s' := (s.addFxs (ks.map fun k => s.atomFx f (acc k) k)).addPends res
  .ok (if ordAcq f.ord && !ks.isEmpty then s'.acquire [] [s.draws + 1] else s', .seq s.g.passes)

/-- `atoms` (R230, R231). One with a `.rel` part issues once no earlier access of its slot can outlast its latency: then its D lands and its RMW is
applied at that latency, after them (log 32). -/
def execAtoms (f : Fields) (s : State) : Answer :=
  issueF 0xC4 f s fun s f => memAccess s fun s =>
    if ordRel f.ord && s.relHeld (s.latency (.cf 0xC4 f)) then .ok (s, .later (s.cyc + 1)) else atomsBody s f

/-- `kset` (R145): the window serves accesses two cycles on. -/
def execKset (f : SFields) (s : State) : Answer :=
  issueS 0xCC f s (uniform f.h fun s =>
    .ok (s.addPends [s.result (s.cyc + 2) (.k (f.d.toNat % 8)) (s.opnd .n64 f.lit s.cyc 0 (.ofCode f.a.toNat))], .seq 1))

end Sys2Proof.Machine
end

