-- ==== Sys2Proof/Machine/Control.lean ====
section
/-! DEFINITION. The control and system instructions (spec/05 R89 to R105). `brv` and `elect` stand with the grid instructions,
`launch` with the dispatcher. -/
namespace Sys2Proof.Machine

open Sys2Proof

/-- The target of a branch, PC + 4 · OFF, as a code address: its bits <63:32> are zero (R55, R90, R94). -/
def branchTarget (pc : Nat) (off : BitVec 27) : Nat := (((pc : Int) + 4 * off.toInt) % 2 ^ 32).toNat

/-- The s register that D of a branch names, at issue (R91). -/
def State.jreg (s : State) (f : JFields) : W64 := s.sreg s.cyc (sIdx f.d)

/-- A branch to a code address held in a register checks its bits <1:0> (R90). Whether bits <63:32> that are not zero are kept is not said:
the PC keeps all 64, so that the first issue there raises ILLEGAL_OPCODE (DESIGN CHOICE, log 43). -/
def checkTarget (a : Nat) : Except Flt Unit := if a % 4 = 0 then .ok () else .error ⟨.misaligned, 0, 0⟩

/-- `nop` (R93). -/
def execNop (f : Fields) (s : State) : Answer := issueF 0x01 f s fun s _ => .ok (s, .seq 1)

/-- `bra` (R94). -/
def execBra (f : JFields) (s : State) : Answer :=
  issueJ 0x02 f s (uniform f.h fun s => .ok (s, .goto (branchTarget s.g.here.pc f.off)))
/-- `brz` (R94). -/
def execBrz (f : JFields) (s : State) : Answer :=
  issueJ 0x03 f s (uniform f.h fun s =>
    .ok (s, if s.jreg f = 0 then .goto (branchTarget s.g.here.pc f.off) else .seq 1))
/-- `brnz` (R94). -/
def execBrnz (f : JFields) (s : State) : Answer :=
  issueJ 0x04 f s (uniform f.h fun s =>
    .ok (s, if s.jreg f != 0 then .goto (branchTarget s.g.here.pc f.off) else .seq 1))
/-- `loop` (R94): the decremented value is tested. -/
def execLoop (f : JFields) (s : State) : Answer :=
  issueJ 0x0A f s (uniform f.h fun s =>
    let n := s.jreg f - 1
    .ok (s.addPends (s.sResult 2 f.d n.toNat), if n != 0 then .goto (branchTarget s.g.here.pc f.off) else .seq 1))
/-- `jmp` (R95): the PC takes all 64 bits of the register (DESIGN CHOICE, log 43). -/
def execJmp (f : JFields) (s : State) : Answer :=
  issueJ 0x06 f s (uniform f.h fun s => do
    checkTarget (s.jreg f).toNat
    .ok (s, .goto (s.jreg f).toNat))
/-- `ret` (R95). -/
def execRet (f : JFields) (s : State) : Answer :=
  issueJ 0x09 f s (uniform f.h fun s => do
    checkTarget (s.jreg f).toNat
    .ok (s, .goto (s.jreg f).toNat))
/-- `call` (R95). -/
def execCall (f : JFields) (s : State) : Answer :=
  issueJ 0x07 f s (uniform f.h fun s =>
    .ok (s.addPends [s.result (s.cyc + 2) (.s 63) (s.g.here.pc + 8)], .goto (branchTarget s.g.here.pc f.off)))
/-- `callr` (R95): the target is read before s63 is written. -/
def execCallr (f : JFields) (s : State) : Answer :=
  issueJ 0x08 f s (uniform f.h fun s => do
    checkTarget (s.jreg f).toNat
    .ok (s.addPends [s.result (s.cyc + 2) (.s 63) (s.g.here.pc + 8)], .goto (s.jreg f).toNat))

/-- `rpt` (R62, R100): the slot's repeat counter is set for the next instruction. -/
def execRpt (f : QFields) (s : State) : Answer :=
  issueQ f s fun s =>
    let x := s.g.here
    .ok (s.setHere { x with
      pc := x.pc + 8, next := s.cyc + 1 + f.h.stall.toNat, block := .none
      rep := { nrep := f.nrep.toNat + 1, rep := 0, mask := f.mask, strd := f.strd.toNat + 1 } }, .own)

/-- `exit` (R96): the performing lanes leave the gang; in handler mode all lanes, both slots and the stack. -/
def exitBody (s : State) (f : Fields) : Except Flt (State × Flow) :=
  let t := s.cyc
  let ks := s.performing f.h
  let g := s.g
  if g.mode && !ks.isEmpty then
    .ok ({ s with g := { g with
      lanes := g.lanes.map fun l => { l with exited := true }, s0 := .freed t, s1 := .freed t, stackd := 0, hstack := 0 } }, .own)
  else
    let left := g.here.mask &&& (g.here.mask ^^^ maskOf ks)
    let g := ks.foldl (fun g k => g.modLane k fun l => { l with exited := true }) g
    if left = 0 then .ok ({ s with g := g.setHere (.freed t) }, .own)
    else .ok ({ s with g := g.setHere { g.here with mask := left } }, .seq 1)

/-- `exit` (R96). -/
def execExit (f : Fields) (s : State) : Answer := issueF 0x0C f s exitBody

/-- `yield` (R97): every issue marks its gang as the most recently issued one. -/
def execYield (f : Fields) (s : State) : Answer := issueF 0x0D f s fun s f => uniform f.h (fun s => .ok (s, .seq 1)) s

/-- `trap` (R98). -/
def execTrap (f : Fields) (s : State) : Answer :=
  issueF 0x0E f s fun s f => uniform f.h (fun s => .error ⟨.software, s.sopnd .n32 f.lit f.a, 0⟩) s
/-- `brk` (R98). -/
def execBrk (f : Fields) (s : State) : Answer :=
  issueF 0x10 f s fun s f => uniform f.h (fun _ => .error ⟨.breakpoint, 0, 0⟩) s

/-- The issue of `tret` (R99): with no register result of an earlier issue in flight it returns at once, else its slot waits for them. A poisoned
word of what it reads raises POISON (R211, log 31). -/
def issueTret (f : Fields) (s : State) : Answer :=
  issueF 0x0F f s fun s f => uniform f.h (fun s =>
    if !s.g.pend.isEmpty then .ok (s, .blocked (.tret f.sub (s.g.lastDue s.cyc)))
    else if s.returnPoison then .error ⟨.poison, 0, 0⟩
    else .ok (trapReturn s f.sub, .returned)) s

/-- A `tret` that has waited returns (R99). -/
def returnNow (s : State) (form : Nat) : Answer :=
  .next (if s.returnPoison then trapBlocked s ⟨.poison, 0, 0⟩ else trapReturn s form)

/-- The form of a `tret` in which slot n waits no more at core cycle t. -/
def Slot.returns (x : Slot) (t : Nat) : Option Nat :=
  match x.block with
  | .tret form due => if x.live && due ≤ t then some form else none
  | _ => none

/-- `tret` (R99): one that has issued returns once the results in flight at its issue have landed; no later issue of the other slot prolongs
the wait. -/
def execTret (f : Fields) (s : State) : Answer :=
  match s.g.s0.returns s.cyc, s.g.s1.returns s.cyc with
  | some form, _ => returnNow (s.atSlot 0) form
  | none, some form => returnNow (s.atSlot 1) form
  | none, none => issueTret f s

/-! ## System registers (R101 to R105) -/

/-- PAIRID (R105): pairs are numbered over the module, 24 to a die. -/
def pairId (pair core : Nat) : Nat := core + 2 * (pair % 24) + 64 * (pair / 24)

/-- WIDTHS (R104). -/
def widthsWord (k : Kern) : Nat := (List.range 6).foldl (fun a i => a + k.width i * 2 ^ (6 * i)) 0

/-- The value of a system register in the issue cycle (R102). -/
def State.sysReg (s : State) (n : Nat) : Nat :=
  let g := s.g
  let b (x : Bool) : Nat := if x then 1 else 0
  match n with
  | 0x001 => b g.chk + 2 * b g.itemen + 4 * b g.lateen
  | 0x002 => g.slackdef
  | 0x003 => g.late
  | 0x004 => s.now % 2 ^ 64
  | 0x005 => ofInt 64 ((s.cyc : Int) - g.cycBase)
  | 0x006 => g.issues % 2 ^ 64
  | 0x007 => widthsWord g.kn
  | 0x008 => g.kn.hang
  | 0x009 => g.regpc
  | 0x00A => g.regcnt
  | 0x00B => b g.mode
  | 0x00C => pairId s.coh.pair g.core
  | 0x00D => (s.pair s.coh.pair).mhz
  | 0x020 => s.tframe
  | _ => g.tcause

/-- `sysrd` (R101). -/
def execSysrd (f : SFields) (s : State) : Answer :=
  issueS 0x11 f s (uniform f.h fun s => .ok (s.addPends (s.sResult 2 f.d (s.sysReg f.sreg.toNat)), .seq 1))
/-- `syswr` (R101): the register changes for instructions issued two cycles on. -/
def execSyswr (f : SFields) (s : State) : Answer :=
  issueS 0x12 f s (uniform f.h fun s =>
    .ok (s.addPends [s.result (s.cyc + 2) (.sys f.sreg.toNat) (s.opnd .n64 f.lit s.cyc 0 (.ofCode f.a.toNat))], .seq 1))

end Sys2Proof.Machine
end

