-- ==== Sys2Proof/Machine/Planes.lean ====
section
/-! DEFINITION. Planes: descriptors, foldings, trees and scans (spec/07 R153 to R162) and the plane instructions (spec/08 R172 to
R190, spec/09 R201). -/
namespace Sys2Proof.Machine

open Sys2Proof

/-! ## Descriptors (R154, R155) -/

/-- The fields of a plane descriptor (R154). -/
structure Desc where
  lpx : Nat
  lpy : Nat
  fx : Nat
  fy : Nat
  wid : Nat
  res : Bool
  base : Nat
  loff : Nat
  ld : Nat
  dstr : Nat
  zero : Nat
  deriving DecidableEq, Repr

/-- The descriptor in a word (R154). -/
def Desc.ofWord (w : W64) : Desc :=
  let x := w.toNat
  { lpx := bits x 0 4, lpy := bits x 4 4, fx := bits x 8 1, fy := bits x 9 1, wid := bits x 10 2, res := x.testBit 12,
    base := bits x 13 8, loff := bits x 21 13, ld := bits x 34 6, dstr := bits x 40 8, zero := bits x 48 16 }

/-- Extents, depth, bytes of an element (R153, R154). -/
def Desc.px (d : Desc) : Nat := 2 ^ d.lpx
def Desc.py (d : Desc) : Nat := 2 ^ d.lpy
def Desc.depth (d : Desc) : Nat := 2 ^ d.ld
def Desc.wb (d : Desc) : Nat := match d.wid with | 0 => 4 | 1 => 2 | _ => 1
/-- Fold factors and slabs (R153). -/
def Desc.facX (d : Desc) (g : Gang) : Nat := max 1 (d.px / g.gx)
def Desc.facY (d : Desc) (g : Gang) : Nat := max 1 (d.py / g.gy)
def Desc.slabs (d : Desc) (g : Gang) : Nat := d.facX g * d.facY g
/-- Elements in one register (R157). -/
def Desc.perReg (d : Desc) : Nat := 4 / d.wb
/-- Footprint per lane and depth plane: registers, or bytes (R155). -/
def Desc.foot (d : Desc) (g : Gang) : Nat :=
  if d.res then g.passes * d.slabs g * d.wb else (d.slabs g + d.perReg - 1) / d.perReg

/-- The descriptor keeps R154 and fits by R155. -/
def Desc.valid (d : Desc) (g : Gang) : Bool :=
  d.wid != 3 && d.zero = 0 && (if d.res then d.base = 0 && d.loff % d.wb = 0 else d.loff = 0) &&
  (if d.res then
    d.loff + 16 * (d.depth - 1) * d.dstr + d.foot g ≤ 8192 && (d.ld = 0 || 16 * d.dstr ≥ d.foot g)
   else d.base + (d.depth - 1) * d.dstr + d.foot g ≤ g.kn.regs && (d.ld = 0 || d.dstr ≥ d.foot g))

/-- A type of the width that the descriptor has. -/
def Desc.fits (d : Desc) (t : Ty) : Bool := t.width = 8 * d.wb

/-- One shape and folding (R183). -/
def Desc.sameFold (a b : Desc) : Bool := a.lpx = b.lpx && a.lpy = b.lpy && a.fx = b.fx && a.fy = b.fy

/-! ## Folding (R156, R157) -/

/-- Grid coordinate and slab coordinate of an index on one axis (R156). -/
def foldAt (ext grid fac fold i : Nat) : Nat × Nat :=
  if ext ≤ grid then (i, 0) else if fold = 0 then (i % grid, i / grid) else (i / fac, i % fac)

/-- The index at a grid coordinate and slab coordinate (R156); none where the plane holds no element. -/
def unfoldAt (ext grid fac fold l sl : Nat) : Option Nat :=
  if ext ≤ grid then (if l < ext then some l else none) else if fold = 0 then some (l + grid * sl) else some (fac * l + sl)

/-- Virtual lane and slab of an element (R156). -/
def Desc.place (d : Desc) (g : Gang) (x y : Nat) : Nat × Nat :=
  let (lx, sx) := foldAt d.px g.gx (d.facX g) d.fx x
  let (ly, sy) := foldAt d.py g.gy (d.facY g) d.fy y
  (ly * g.gx + lx, sx + d.facX g * sy)

/-- The element at slab sl of virtual lane k (R156). -/
def Desc.elemAt (d : Desc) (g : Gang) (k sl : Nat) : Option (Nat × Nat) :=
  match unfoldAt d.px g.gx (d.facX g) d.fx (g.kx k) (sl % d.facX g),
    unfoldAt d.py g.gy (d.facY g) d.fy (g.ky k) (sl / d.facX g) with
  | some x, some y => some (x, y)
  | _, _ => none

/-- Whether virtual lane k holds elements of the plane (R153). -/
def Desc.holds (d : Desc) (g : Gang) (k : Nat) : Bool := (d.elemAt g k 0).isSome

/-- Lane offset of slab sl of depth plane dp in lane k (R157). -/
def Desc.offAt (d : Desc) (g : Gang) (k dp sl : Nat) : Nat :=
  d.loff + 16 * dp * d.dstr + (g.pass k * d.slabs g + sl) * d.wb

/-- Register of slab sl of depth plane dp (R157). -/
def Desc.regAt (d : Desc) (dp sl : Nat) : Nat := d.base + dp * d.dstr + sl / d.perReg

/-! ## Lane ranges of scratchpad -/

/-- A range of lane offsets cut at multiples of 16, so that each part is contiguous in the linear view (R203): offset and length. -/
def laneChunks : Nat → Nat → Nat → List (Nat × Nat)
  | 0, _, _ => []
  | fuel + 1, o, n =>
    if n = 0 then []
    else
      let m := min n (16 - o % 16)
      (o, m) :: laneChunks fuel (o + m) (n - m)

/-- Stores of bytes from lane offset o of physical lane l on, in the slot's core. -/
def State.laneStores (s : State) (due l o : Nat) (bs : List Byte) : List Fx :=
  let c := s.coh
  (laneChunks bs.length o bs.length).map fun p =>
    s.store due (coreOf c.pair s.g.core) (linOf l (c.reloc p.1)) ((bs.drop (p.1 - o)).take p.2)

/-- Lane offsets o to o + n - 1 of physical lane l of the own core, as ranges of the linear view. -/
def State.laneSpans (s : State) (l o n : Nat) : List Span :=
  let c := s.coh
  (laneChunks n o n).map fun p => (coreOf c.pair s.g.core, linOf l (c.reloc p.1), p.2)

/-- Bytes of lane l of the own core; a slot reads the state as it sees it. -/
def State.laneRead (s : State) (l o n : Nat) : List Byte := (s.laneSpans l o n).flatMap s.padRead

/-! ## Reading and writing planes -/

/-- The ranges of a scratchpad plane in the given lanes: lane, offset, length, one for each depth plane. -/
def Desc.ranges (d : Desc) (g : Gang) (ks : List Nat) : List (Nat × Nat × Nat) :=
  if d.res then
    ks.flatMap fun k =>
      if d.holds g k then (List.range d.depth).map fun dp => (k, d.offAt g k dp 0, d.slabs g * d.wb) else []
  else []

/-- Register targets of a register plane in the given lanes. -/
def Desc.tgts (d : Desc) (g : Gang) (ks : List Nat) : List Tgt :=
  if d.res then []
  else ks.flatMap fun k =>
    if d.holds g k then
      (List.range d.depth).flatMap fun dp => (List.range (d.foot g)).map fun r => Tgt.v k (d.base + dp * d.dstr + r)
    else []

/-- An element of a plane as read at issue (R157, R173, R176). -/
def State.planeElem (s : State) (d : Desc) (dp x y : Nat) : Nat :=
  let (k, sl) := d.place s.g x y
  if d.res then leNat (s.laneRead (s.g.phys k) (d.offAt s.g k dp sl) d.wb)
  else
    bits (s.g.seen s.draws s.cyc k (.v k (d.regAt dp sl))) (8 * d.wb * (sl % d.perReg)) (8 * d.wb)

/-- The elements of a lane's register r of a depth plane, in their places; the other bits are 0 (R157). -/
def slabWord (d : Desc) (g : Gang) (k r : Nat) (val : Nat → Nat → Nat) : Nat :=
  (List.range d.perReg).foldl (fun w i =>
    let sl := r * d.perReg + i
    if sl < d.slabs g then
      match d.elemAt g k sl with
      | some (x, y) => w + (val x y % 2 ^ (8 * d.wb)) * 2 ^ (8 * d.wb * i)
      | none => w
    else w) 0

/-- The bits of a footprint register that hold no slab: they are never written (R157). -/
def slabGap (d : Desc) (g : Gang) (k r : Nat) : Nat := 2 ^ 32 - 1 - slabWord d g k r fun _ _ => 2 ^ 32 - 1

/-- The results of writing a plane in the given lanes: register results and stores, at cycle due (R172, R173, R175). -/
def State.planeWrite (s : State) (d : Desc) (ks : List Nat) (due : Nat) (val : Nat → Nat → Nat → Nat) : State :=
  let g := s.g
  let ks := ks.filter fun k => d.holds g k
  if d.res then
    s.addFxs (ks.flatMap fun k => (List.range d.depth).flatMap fun dp =>
      s.laneStores due (g.phys k) (d.offAt g k dp 0) ((List.range (d.slabs g)).flatMap fun sl =>
        match d.elemAt g k sl with
        | some (x, y) => leBytes d.wb (val dp x y)
        | none => leBytes d.wb 0))
  else
    s.addPends (ks.flatMap fun k => (List.range d.depth).flatMap fun dp => (List.range (d.foot g)).map fun r =>
      { s.result due (.v k (d.base + dp * d.dstr + r)) (slabWord d g k r (val dp)) with keepBits := slabGap d g k r })

/-! ## Checks (R177, R201) -/

/-- DESC_INVALID over the descriptors, each with its field and what the entry asks of it (R177). -/
def checkDescs (g : Gang) (depth : Nat) : List (Nat × Desc × Bool) → Except Flt Unit
  | [] => .ok ()
  | (i, d, ask) :: ds =>
    if d.valid g && ask && d.depth = depth then checkDescs g depth ds else .error ⟨.descInvalid, i, 0⟩

/-- What a plane instruction reads and writes, its latency, and how long it takes the plane unit (R173, R174). -/
structure Plan where
  dst : Desc
  srcs : List (Nat × Desc)
  lat : Nat
  n : Nat
  deriving DecidableEq, Repr

/-- What the issue of a plane instruction looks at: the registers of its valid descriptors (R33, R37), and the plane unit where it acts. -/
def Plan.also (s : State) (h : Hdr) (p : Plan) : Also :=
  if !(s.acts h) then .none_
  else
    let none_ := s.g.pend.isEmpty
    { srcs := if none_ then [] else (p.srcs.filter fun q => q.2.valid s.g).flatMap fun q =>
        (q.2.tgts s.g (List.range s.g.size)).map fun t => (q.1, t)
      dsts := if none_ || !(p.dst.valid s.g) then [] else p.dst.tgts s.g (s.performing h)
      lat := p.lat, moved := [], units := [(.plane, max 1 p.n)] }

/-- The issue of a plane instruction (R172, R173). -/
def issuePlane (op : Nat) (f : Fields) (s : State) (plan : State → Fields → Plan)
    (body : State → Fields → Plan → Except Flt (State × Flow)) : Answer :=
  issueWith op f s (fun s f => (plan s f).also s f.h) fun s f =>
    uniform f.h (fun s => memAccess s fun s => body s f (plan s f)) s

/-- FOLD_MISMATCH with the detail of R201. -/
def foldCheck (ok : Bool) (field : Nat) : Except Flt Unit := if ok then .ok () else .error ⟨.foldMismatch, field, 0⟩

/-- SCRATCH_BOUNDS, RANGE_BUSY and POISON over the bytes of the planes (R175, R177): the destination in the lanes that write, the
sources in every lane. -/
def State.planeAccess (s : State) (h : Hdr) (dst : Desc) (srcs : List (Nat × Desc)) : Except Flt Unit :=
  let c := s.coh
  let g := s.g
  let core := coreOf c.pair g.core
  let all := List.range g.size
  let rs := ((dst.ranges g (s.performing h)).map fun r => (0, true, r)) ++
    srcs.flatMap fun p => (p.2.ranges g all).map fun r => (p.1, false, r)
  match rs.find? fun r => !(c.inside r.2.2.2.1 r.2.2.2.2) with
  | some r => .error ⟨.scratchBounds, r.1, 0⟩
  | none =>
    match s.lockHit (rs.map fun r => (core, g.phys r.2.2.1, c.reloc r.2.2.2.1, r.2.2.2.2, r.2.1)) with
    | some e => .error ⟨.rangeBusy, e, 0⟩
    | none =>
      if s.spoison.isEmpty then .ok ()
      else
        match (rs.filter fun r => !r.2.1 && (laneChunks r.2.2.2.2 r.2.2.2.1 r.2.2.2.2).any fun q =>
            s.slotPoison core (linOf (g.phys r.2.2.1) (c.reloc q.1)) q.2).map fun r => r.2.2.1 with
        | k :: ks => .error ⟨.poison, ks.foldl min k, 0⟩
        | [] => .ok ()

/-- The places of the slot's RMWs in flight on the source planes are fixed before they are read (R231). -/
def State.planeSettle (s : State) (srcs : List (Nat × Desc)) : State :=
  if s.g.fx.isEmpty then s
  else s.settle (srcs.flatMap fun p => (p.2.ranges s.g (List.range s.g.size)).flatMap fun r => s.laneSpans (s.g.phys r.1) r.2.1 r.2.2)

/-- A plane instruction after its own checks: accesses checked, elements read, the destination written at t + lat (R173, R176). -/
def planeRun (s : State) (f : Fields) (p : Plan) (val : State → Nat → Nat → Nat → Nat) : Except Flt (State × Flow) := do
  s.planeAccess f.h p.dst p.srcs
  let s := s.planeSettle p.srcs
  .ok (s.planeWrite p.dst (s.performing f.h) (s.cyc + p.lat) (val s.asSeen), .seq 1)

/-- The descriptors that D, A and B name (R172). -/
def State.descD (s : State) (f : Fields) : Desc := .ofWord (s.sreg s.cyc (sIdx f.d))
def State.descA (s : State) (f : Fields) : Desc := .ofWord (s.sreg s.cyc (sIdx f.a))
def State.descB (s : State) (f : Fields) : Desc := .ofWord (s.sreg s.cyc (sIdx f.b))

/-- n(X): slabs that one physical lane processes (R174). -/
def Desc.n (d : Desc) (g : Gang) : Nat := g.passes * d.depth * d.slabs g

/-! ## Operations on elements (R183) -/

/-- a ⊕ b by POP in a type (R183). -/
def popVal (pop : Nat) (t : Ty) (rm : Nat) (sat : Bool) (a b r : Nat) : Nat :=
  let f := t.fmt
  match pop with
  | 0 => if t.isFloat then roundFV f rm false (FV.add rm (f.val a) (f.val b)) r else addElem t sat a b
  | 1 => if t.isFloat then roundFV f rm false (FV.add rm (f.val a) (f.val b).neg) r else subElem t sat a b
  | 2 => if t.isFloat then roundFV f rm false (FV.mul (f.val a) (f.val b)) r else mulElem t sat a b
  | 3 => if t.isFloat then fminmax f false false a b else minElem t a b
  | 4 => if t.isFloat then fminmax f true false a b else maxElem t a b
  | 5 => a &&& b
  | 6 => a ||| b
  | 7 => a ^^^ b
  | 8 => fminmax f false true a b
  | 9 => fminmax f true true a b
  | _ => a

/-- The identity that an exclusive scan puts in element 0 (R187). -/
def popIdentity (pop : Nat) (t : Ty) (wb : Nat) : Nat :=
  let f := t.fmt
  match pop with
  | 3 => if t.isFloat then f.infBits else ofInt t.width (intMax t.signed t.width)
  | 4 => if t.isFloat then f.signBit + f.infBits else ofInt t.width (intMin t.signed t.width)
  | 5 => 2 ^ (8 * wb) - 1
  | 8 | 9 => f.nan
  | _ => 0

/-! ## Draws of one lane in order -/

/-- A draw's number within its lane: lanes lists, in draw order, the lane that takes each draw. -/
def drawNumbers : List Nat → List (Nat × Nat) → List Nat
  | [], _ => []
  | k :: ks, seen => let n := assoc seen k 0; n :: drawNumbers ks (assocSet seen k (n + 1))

/-- Every lane's generator after the draws that ks lists. -/
def State.drawLanes (s : State) (ks : List Nat) : State :=
  { s with g := { s.g with lanes := s.g.lanes.zipIdx.map fun p =>
      let n := (ks.filter (· = p.2)).length
      if n = 0 then p.1 else { p.1 with z := zAfter p.1.z n } } }

/-- Draws of a conversion or elementwise operation: a writing lane's element at depth plane dp, slab sl is its draw dp · S + sl
(R181). -/
def State.elemRho (s : State) (d : Desc) (rm dp x y : Nat) : Nat :=
  let (k, sl) := d.place s.g x y
  rho rm (s.zOf k) (dp * d.slabs s.g + sl)

/-- The generators after such an instruction under `.rs`. -/
def State.elemDraws (s : State) (h : Hdr) (d : Desc) (rm : Nat) : State :=
  if rm = 4 then
    s.drawLanes (((s.performing h).filter fun k => d.holds s.g k).flatMap fun k =>
      (List.range (d.depth * d.slabs s.g)).map fun _ => k)
  else s

/-! ## Trees (R161, R162) -/

/-- One level of the halving tree: node x combines x and x + n/2. -/
def halveLevel (op : Nat → Nat → Nat → Nat) (vs : List Nat) : List Nat :=
  let n := vs.length / 2
  (List.range n).map fun i => op i (vs.getD i 0) (vs.getD (i + n) 0)

/-- One level of the adjacent tree: node i combines 2i and 2i + 1. -/
def pairLevel (op : Nat → Nat → Nat → Nat) (vs : List Nat) : List Nat :=
  (List.range (vs.length / 2)).map fun i => op i (vs.getD (2 * i) 0) (vs.getD (2 * i + 1) 0)

/-- All levels of a tree over 2^lg values, level 0 first; op takes the level, the node's place in it and the operands. -/
def treeLevels (adj : Bool) (op : Nat → Nat → Nat → Nat → Nat) : Nat → Nat → List Nat → List (List Nat)
  | 0, _, vs => [vs]
  | lg + 1, j, vs =>
    vs :: treeLevels adj op lg (j + 1) ((if adj then pairLevel else halveLevel) (op j) vs)

/-- The blocks of R162 for n = x + 1: level and place of each, greatest first. -/
def scanBlocks : Nat → Nat → Nat → List (Nat × Nat)
  | 0, first, n => if n % 2 = 1 then [(0, first)] else []
  | lg + 1, first, n =>
    let p := 2 ^ (lg + 1)
    if n ≥ p then (lg + 1, first / p) :: scanBlocks lg (first + p) (n - p) else scanBlocks lg first n

/-- The element index that a tree node stands at (R161): j counts levels from 1. -/
def nodeIndex (adj : Bool) (j i : Nat) : Nat := if adj then i * 2 ^ j else i

/-- The draws of the trees of a plane along an axis, in the order of R186: each with its key (depth plane, line, level, place) and
the lane that draws. -/
def treeDraws (d : Desc) (g : Gang) (ax adj : Bool) (scan : Bool) : List ((Nat × Nat × Nat × Nat) × Nat) :=
  let lg := if ax then d.lpy else d.lpx
  let lines := if ax then d.px else d.py
  let lane (line i : Nat) : Nat := (if ax then d.place g line i else d.place g i line).1
  (List.range d.depth).flatMap fun dp => (List.range lines).flatMap fun line =>
    ((List.range lg).flatMap fun j => (List.range (2 ^ (lg - 1 - j))).map fun i =>
      ((dp, line, j + 1, i), lane line (nodeIndex adj (j + 1) i))) ++
    (if scan then
      (List.range (2 ^ lg)).flatMap fun x => (List.range ((scanBlocks lg 0 (x + 1)).length - 1)).map fun i =>
        ((dp, line, 64 + x, i), lane line x)
    else [])

/-- The 32-bit draw of each key. -/
def drawTable (s : State) (ds : List ((Nat × Nat × Nat × Nat) × Nat)) : List ((Nat × Nat × Nat × Nat) × Nat) :=
  (ds.zip (drawNumbers (ds.map (·.2)) [])).map fun p => (p.1.1, drawAt (s.zOf p.1.2) p.2)

/-- The draw of a key. -/
def drawOf (tab : List ((Nat × Nat × Nat × Nat) × Nat)) (k : Nat × Nat × Nat × Nat) : Nat :=
  match tab.find? fun p => p.1 == k with
  | some p => p.2
  | none => 0

/-- The elements of one line of a plane along an axis. -/
def State.lineElems (s : State) (d : Desc) (ax : Bool) (dp line : Nat) : List Nat :=
  if ax then (List.range d.py).map fun y => s.planeElem d dp line y
  else (List.range d.px).map fun x => s.planeElem d dp x line

/-- The levels of the tree of one line (R161). -/
def State.lineTree (s : State) (f : Fields) (d : Desc) (adj : Bool) (tab : List ((Nat × Nat × Nat × Nat) × Nat))
    (dp line : Nat) : List (List Nat) :=
  let lg := if f.ax then d.lpy else d.lpx
  treeLevels adj (fun j i a b =>
    popVal f.pop f.ty f.rnd (f.sub % 2 = 1) a b (drawOf tab (dp, line, j, i))) lg 1 (s.lineElems d f.ax dp line)

/-- The fold of one line: the last level's only value. -/
def foldOf (levels : List (List Nat)) : Nat := (levels.getLastD []).headD 0

/-- The inclusive value at index x (R162). -/
def inclusiveAt (f : Fields) (lg : Nat) (levels : List (List Nat)) (tab : List ((Nat × Nat × Nat × Nat) × Nat))
    (dp line x : Nat) : Nat :=
  let vs := (scanBlocks lg 0 (x + 1)).map fun b => (levels.getD b.1 []).getD b.2 0
  match vs with
  | [] => 0
  | v :: vs => (vs.zipIdx).foldl (fun acc p =>
      popVal f.pop f.ty f.rnd (f.sub % 2 = 1) acc p.1 (drawOf tab (dp, line, 64 + x, p.2))) (f.ty.canon v)

/-! ## The instructions -/

/-- The word that `pdesc` gives for a descriptor (R180). -/
def pdescWord (d : Desc) (g : Gang) : Nat :=
  if d.valid g then
    min (d.slabs g) 0xFFFF + min (d.foot g) 0xFFFF * 2 ^ 16 + (d.lpx - g.kn.width 0) * 2 ^ 32 +
    (d.lpy - g.kn.width 1) * 2 ^ 36 + g.passes.log2 * 2 ^ 40 + 2 ^ 63
  else 0

/-- `pdesc` (R180). -/
def execPdesc (f : Fields) (s : State) : Answer :=
  issueWith 0xA1 f s (fun s f => if s.acts f.h then { Also.none_ with units := [(.plane, 1)] } else .none_) fun s f =>
    uniform f.h (fun s => .ok (s.addPends (s.sResult 2 f.d (pdescWord (s.descA f) s.g)), .seq 1)) s

/-- What `pld` and `pst` read and write; load tells which side has which residence (R174, R181). -/
def movePlan (load : Bool) (s : State) (f : Fields) : Plan :=
  let sp := if load then s.descA f else s.descD f
  let n := (sp.n s.g * sp.wb + 15) / 16
  { dst := s.descD f, srcs := [(1, s.descA f)], lat := 8 + n, n := n }

/-- `pld` and `pst` (R181). -/
def moveBody (load : Bool) (s : State) (f : Fields) (p : Plan) : Except Flt (State × Flow) := do
  let st := Ty.ofCode f.pop
  let d := p.dst
  let a := s.descA f
  checkDescs s.g d.depth [(0, d, d.fits f.ty && d.res != load), (1, a, a.fits st && a.res = load)]
  foldCheck (d.sameFold a) 1
  let (s', fl) ← planeRun s f p fun s dp x y =>
    convElem f.ty st f.rnd (f.sub = 1) (s.planeElem a dp x y) (s.elemRho d f.rnd dp x y)
  .ok (s'.elemDraws f.h d f.rnd, fl)

/-- `pld` (R181). -/
def execPld (f : Fields) (s : State) : Answer := issuePlane 0xA2 f s (movePlan true) (moveBody true)
/-- `pst` (R181). -/
def execPst (f : Fields) (s : State) : Answer := issuePlane 0xA3 f s (movePlan false) (moveBody false)

/-- What `pew` reads and writes; `.mov` has no B (R174, R183). -/
def pewPlan (s : State) (f : Fields) : Plan :=
  let d := s.descD f
  { dst := d, srcs := [(1, s.descA f)] ++ (if f.pop != 10 then [(2, s.descB f)] else []), lat := 6 + d.n s.g, n := d.n s.g }

/-- `pew` (R183). b32 operations take any width, other types that of the descriptors; where the widths of b32 descriptors differ, elements
are zero-extended and the result is cut to D's width (log 43). -/
def pewBody (s : State) (f : Fields) (p : Plan) : Except Flt (State × Flow) := do
  let d := p.dst
  let a := s.descA f
  let two := f.pop != 10
  let b := if two then s.descB f else a
  let ask (x : Desc) : Bool := f.ty = .b32 || x.fits f.ty
  checkDescs s.g d.depth ([(0, d, ask d), (1, a, ask a)] ++ if two then [(2, b, ask b)] else [])
  foldCheck (d.sameFold a) 1
  foldCheck (d.sameFold b) 2
  let draws := f.ty.isFloat && f.pop ≤ 2
  let (s', fl) ← planeRun s f p fun s dp x y =>
    popVal f.pop f.ty f.rnd (f.sub = 1) (s.planeElem a dp x y) (s.planeElem b dp x y) (s.elemRho d f.rnd dp x y)
  .ok (if draws then s'.elemDraws f.h d f.rnd else s', fl)

/-- `pew` (R183). -/
def execPew (f : Fields) (s : State) : Answer := issuePlane 0xA4 f s pewPlan pewBody

/-- The hop count of a shift by distance n along an axis (R182). -/
def hopShift (pa ga fac fold n : Nat) : Nat :=
  if pa ≤ ga then min n 16 else if fold = 0 then min (n % ga) 16 else min ((n + fac - 1) / fac) 16

/-- The hop count of R182. -/
def Desc.hops (d : Desc) (g : Gang) (ax rot : Bool) (n : Int) : Nat :=
  let (pa, ga, fac, fold) := if ax then (d.py, g.gy, d.facY g, d.fy) else (d.px, g.gx, d.facX g, d.fx)
  if rot then
    let m := (n % pa).toNat
    min (hopShift pa ga fac fold m) (hopShift pa ga fac fold (pa - m))
  else if n.natAbs ≥ pa then 0 else hopShift pa ga fac fold n.natAbs

/-- The source index of a shift or rotation (R159); none where the edge value stands. -/
def shiftSrc (pa : Nat) (rot clamp : Bool) (n : Int) (i : Nat) : Option Nat :=
  let j := (i : Int) - n
  if rot then some (j % pa).toNat
  else if 0 ≤ j && j < pa then some j.toNat
  else if clamp then some (max 0 (min j ((pa : Int) - 1))).toNat
  else none

/-- The distance of a shift or rotation (R184). -/
def State.shiftDist (s : State) (f : Fields) : Int := toInt true 32 (s.sopnd .b64 f.lit f.b)

/-- What `pshift` and `prot` read and write (R174, R184). -/
def shiftPlan (rot : Bool) (s : State) (f : Fields) : Plan :=
  let a := s.descA f
  { dst := s.descD f, srcs := [(1, a)], lat := 4 + a.hops s.g f.ax rot (s.shiftDist f) + a.n s.g, n := a.n s.g }

/-- `pshift` and `prot` (R184). -/
def shiftBody (rot : Bool) (s : State) (f : Fields) (p : Plan) : Except Flt (State × Flow) := do
  let d := p.dst
  let a := s.descA f
  let n := s.shiftDist f
  let fill := bits (s.sopnd .b64 f.lit f.b) 32 (8 * d.wb)
  checkDescs s.g d.depth [(0, d, true), (1, a, true)]
  foldCheck (d.sameFold a && d.wid = a.wid) 1
  planeRun s f p fun s dp x y =>
    let edge := if f.edge = 1 then fill else 0
    if f.ax then match shiftSrc d.py rot (f.edge = 2) n y with | some j => s.planeElem a dp x j | none => edge
    else match shiftSrc d.px rot (f.edge = 2) n x with | some j => s.planeElem a dp j y | none => edge

/-- `pshift` (R184). -/
def execPshift (f : Fields) (s : State) : Answer :=
  issuePlane 0xA5 f s (shiftPlan false) (shiftBody false)
/-- `prot` (R184). -/
def execProt (f : Fields) (s : State) : Answer :=
  issuePlane 0xA6 f s (shiftPlan true) (shiftBody true)

/-- Extent and fold on the axis across AX agree (R185, R186). -/
def crossOk (ax : Bool) (d a : Desc) : Bool :=
  if ax then d.lpx = a.lpx && d.fx = a.fx else d.lpy = a.lpy && d.fy = a.fy

/-- Extent along AX. -/
def Desc.lpa (d : Desc) (ax : Bool) : Nat := if ax then d.lpy else d.lpx

/-- What `pspread` reads and writes (R174, R185). -/
def spreadPlan (s : State) (f : Fields) : Plan :=
  let d := s.descD f
  let ga := if f.ax then s.g.gy else s.g.gx
  { dst := d, srcs := [(1, s.descA f)], lat := 6 + (min ga 16).log2 + d.n s.g, n := d.n s.g }

/-- `pspread` (R185). -/
def spreadBody (s : State) (f : Fields) (p : Plan) : Except Flt (State × Flow) := do
  let d := p.dst
  let a := s.descA f
  checkDescs s.g d.depth [(0, d, true), (1, a, true)]
  foldCheck (a.lpa f.ax = 0 && crossOk f.ax d a && d.wid = a.wid) 1
  planeRun s f p fun s dp x y => if f.ax then s.planeElem a dp x 0 else s.planeElem a dp 0 y

/-- `pspread` (R185). -/
def execPspread (f : Fields) (s : State) : Answer :=
  issuePlane 0xA7 f s spreadPlan spreadBody

/-- What `pfold` and `pscan` read and write (R174, R186, R187). -/
def foldPlan (s : State) (f : Fields) : Plan :=
  let a := s.descA f
  { dst := s.descD f, srcs := [(1, a)], lat := 8 + 2 * a.lpa f.ax + a.n s.g, n := a.n s.g }

/-- `pfold` (R186); a D that disagrees with A across AX gives detail 0 (R201). Where the widths of b32 descriptors differ, it folds at A's
width and the result is cut or zero-extended to D's (log 43). -/
def foldBody (s : State) (f : Fields) (p : Plan) : Except Flt (State × Flow) := do
  let d := p.dst
  let a := s.descA f
  let ask (x : Desc) : Bool := f.ty = .b32 || x.fits f.ty
  checkDescs s.g d.depth [(0, d, ask d), (1, a, ask a)]
  foldCheck (d.lpa f.ax = 0 && crossOk f.ax d a) 0
  let adj := (if f.ax then a.fy else a.fx) = 1
  let rs := f.ty.isFloat && f.rnd = 4
  let ds := if rs then treeDraws a s.g f.ax adj false else []
  let (s', fl) ← planeRun s f p fun s dp x y =>
    f.ty.canon <| foldOf (s.lineTree f a adj (drawTable s ds) dp (if f.ax then x else y))
  .ok (if rs then s'.drawLanes (ds.map (·.2)) else s', fl)

/-- `pfold` (R186). -/
def execPfold (f : Fields) (s : State) : Answer :=
  issuePlane 0xA8 f s foldPlan foldBody

/-- What `prefold` reads and writes (R174, R188). -/
def refoldPlan (s : State) (f : Fields) : Plan :=
  let d := s.descD f
  let a := s.descA f
  let cx := if d.fx != a.fx && a.px > s.g.gx then min s.g.gx 16 else 0
  let cy := if d.fy != a.fy && a.py > s.g.gy then min s.g.gy 16 else 0
  { dst := d, srcs := [(1, a)], lat := 8 + 2 * a.n s.g + cx + cy, n := 2 * a.n s.g }

/-- `prefold` (R188). -/
def refoldBody (s : State) (f : Fields) (p : Plan) : Except Flt (State × Flow) := do
  let d := p.dst
  let a := s.descA f
  checkDescs s.g d.depth [(0, d, true), (1, a, true)]
  foldCheck (d.lpx = a.lpx && d.lpy = a.lpy && d.wid = a.wid) 1
  planeRun s f p fun s dp x y => s.planeElem a dp x y

/-- `prefold` (R188). -/
def execPrefold (f : Fields) (s : State) : Answer :=
  issuePlane 0xA9 f s refoldPlan refoldBody

/-- What `ptrans` reads and writes (R174, R189). -/
def transPlan (s : State) (f : Fields) : Plan :=
  let a := s.descA f
  { dst := s.descD f, srcs := [(1, a)], lat := 12 + 2 * a.n s.g, n := 2 * a.n s.g }

/-- `ptrans` (R189). -/
def transBody (s : State) (f : Fields) (p : Plan) : Except Flt (State × Flow) := do
  let d := p.dst
  let a := s.descA f
  checkDescs s.g d.depth [(0, d, true), (1, a, true)]
  foldCheck (s.g.gx = s.g.gy) 0
  foldCheck (d.lpx = a.lpy && d.lpy = a.lpx && d.fx = a.fy && d.fy = a.fx && d.wid = a.wid) 1
  planeRun s f p fun s dp x y => s.planeElem a dp y x

/-- `ptrans` (R189). -/
def execPtrans (f : Fields) (s : State) : Answer :=
  issuePlane 0xAA f s transPlan transBody

/-- `pscan` (R187). -/
def scanBody (s : State) (f : Fields) (p : Plan) : Except Flt (State × Flow) := do
  let d := p.dst
  let a := s.descA f
  let ask (x : Desc) : Bool := f.ty = .b32 || x.fits f.ty
  checkDescs s.g d.depth [(0, d, ask d), (1, a, ask a)]
  let lg := a.lpa f.ax
  foldCheck (d.sameFold a && d.wid = a.wid) 1
  let rs := f.ty.isFloat && f.rnd = 4
  let excl := f.sub / 2 = 1
  let ds := if rs then treeDraws a s.g f.ax true true else []
  let (s', fl) ← planeRun s f p fun s dp x y =>
    let tab := drawTable s ds
    let line := if f.ax then x else y
    let i := if f.ax then y else x
    let levels := s.lineTree f a true tab dp line
    if excl then
      if i = 0 then popIdentity f.pop f.ty d.wb else inclusiveAt f lg levels tab dp line (i - 1)
    else inclusiveAt f lg levels tab dp line i
  .ok (if rs then s'.drawLanes (ds.map (·.2)) else s', fl)

/-- `pscan` (R187). -/
def execPscan (f : Fields) (s : State) : Answer :=
  issuePlane 0xAB f s foldPlan scanBody

/-- What `pfill` writes (R174, R190). -/
def fillPlan (s : State) (f : Fields) : Plan :=
  let d := s.descD f
  { dst := d, srcs := [], lat := 4 + d.n s.g, n := d.n s.g }

/-- `pfill` (R190). -/
def fillBody (s : State) (f : Fields) (p : Plan) : Except Flt (State × Flow) := do
  let d := p.dst
  checkDescs s.g d.depth [(0, d, f.ty = .b32 || d.fits f.ty)]
  let a := if f.pop = 0 then s.sopnd f.ty f.lit f.a else 0
  planeRun s f p fun _ _ x y => match f.pop with | 0 => a | 1 => x | _ => y

/-- `pfill` (R190). -/
def execPfill (f : Fields) (s : State) : Answer :=
  issuePlane 0xB0 f s fillPlan fillBody

end Sys2Proof.Machine
end

