-- ==== Sys2Proof/Machine/Grid.lean ====
section
/-! DEFINITION. Instructions across lanes: `mvn`, `bset`, `bperm`, `vote`, `elect`, `brv`, `cfd`, `kadd` (spec/08 R191 to R200), and
the steps of the PC slots (spec/07 R163 to R171). -/
namespace Sys2Proof.Machine

open Sys2Proof

/-! ## Moving single values -/

/-- The source coordinate of `mvn` on one axis (R191). -/
def mvnSrc (ext edge : Nat) (d : Int) (x : Nat) : Option Nat :=
  let s := (x : Int) - d
  let s := if edge = 3 then s % ext else if edge = 2 then max 0 (min s ((ext : Int) - 1)) else s
  if 0 ≤ s && s < ext then some s.toNat else none

/-- An operand of a lane read at the issue cycle, whatever its pass (R191). -/
def State.opndNow (s : State) (t : Ty) (lit : Lit) (k : Nat) (code : BitVec 9) : Nat :=
  s.opnd t lit s.cyc k (.ofCode code.toNat)

/-- The lane whose value `mvn` takes for lane k; none where the edge value stands (R191). -/
def State.mvnFrom (s : State) (f : Fields) (k : Nat) : Option Nat :=
  let g := s.g
  if f.sub % 2 = 0 then (mvnSrc g.gx (f.sub / 2) (s.mvnDist f) (g.kx k)).map fun x => g.ky k * g.gx + x
  else (mvnSrc g.gy (f.sub / 2) (s.mvnDist f) (g.ky k)).map fun y => y * g.gx + g.kx k

/-- What `mvn` reads: lanes from which values come, and its distance and fill (R37, R191). -/
def State.mvnAlso (s : State) (f : Fields) : Also :=
  let ks := s.performing f.h
  { Also.none_ with
    moved := ks.filterMap (s.mvnFrom f)
    srcs := if ks.isEmpty then [] else (srcsOf s.g 0 (.cf 0xA0 f)).filter fun p => p.1 = 2 || p.1 = 3 }

/-- `mvn` (R191). -/
def execMvn (f : Fields) (s : State) : Answer :=
  issueWith 0xA0 f s State.mvnAlso fun s f =>
    let fill := if f.sub / 2 = 1 then s.sopnd f.ty f.lit f.c else 0
    let val (k : Nat) : Nat :=
      match s.mvnFrom f k with
      | some j => s.opndNow f.ty f.lit j f.a
      | none => fill
    .ok (s.addPends (s.resultsBy (fun _ => s.cyc) (s.guard f.h) f.d f.ty.regs (s.latency (.cf 0xA0 f)) val), .seq s.g.passes)

/-- The identity permutation of 256 lanes (R192). -/
def idPerm : List Nat := List.range 256

/-- The configuration bc n of the gang's core (R192). A `bset` in flight holds whatever would read it. -/
def State.bcPerm (s : State) (n : Nat) : List Nat := s.coh.bc.getD (4 * s.g.core + n) idPerm

/-- The least j whose source byte repeats an earlier one. -/
def repeatedAt (l : List Nat) : Option Nat := (List.range l.length).find? fun j => (l.take j).contains (l.getD j 0)

/-- `bset` (R192). -/
def bsetBody (s : State) (f : Fields) : Except Flt (State × Flow) := do
  let a := (s.sreg s.cyc (sIdx f.a)).toNat
  let accs := (List.range 16).map fun i => s.linAcc 0 (a + 16 * i) 16
  match s.checkAccs accs 16 .read false with
  | .error e => .error (if e.cause = .misaligned || e.cause = .scratchBounds then { e with detail := 1 } else e)
  | .ok () =>
    let s := s.settle (accs.map (Acc.span s.coh 16))
    let tab := accs.flatMap fun x => s.asSeen.padRead (x.span s.coh 16)
    match repeatedAt (tab.map (·.toNat)) with
    | some j => .error ⟨.descInvalid, j, 0⟩
    | none => .ok (s.addPends [s.result (s.cyc + 600) (.bc (4 * s.g.core + f.d.toNat % 4)) (leNat tab)], .seq 1)

/-- `bset` (R192). -/
def execBset (f : Fields) (s : State) : Answer :=
  issueF 0xAC f s fun s f => uniform f.h (fun s => memAccess s fun s => bsetBody s f) s

/-- The virtual lane that runs in physical lane p in pass j (R149). -/
def Gang.virtAt (g : Gang) (p j : Nat) : Option Nat := (List.range g.size).find? fun k => g.phys k = p && g.pass k = j

/-- The lane whose value `bperm` takes for lane k, its source lane in bc; none outside the gang's sub-field (R193). -/
def State.bpermFrom (s : State) (f : Fields) (k : Nat) : Option Nat :=
  s.g.virtAt ((s.bcPerm (f.c.toNat % 4)).getD (s.g.phys k) 0) (s.g.pass k)

/-- `bperm` (R193). -/
def execBperm (f : Fields) (s : State) : Answer :=
  issueWith 0xAD f s (fun s f => { Also.none_ with moved := (s.performing f.h).filterMap (s.bpermFrom f) }) fun s f =>
    let val (k : Nat) : Nat :=
      match s.bpermFrom f k with
      | some j => s.opndNow f.ty f.lit j f.a
      | none => 0
    .ok (s.addPends (s.resultsBy (fun _ => s.cyc) (s.guard f.h) f.d f.ty.regs (s.latency (.cf 0xAD f)) val), .seq s.g.passes)

/-! ## Votes and election -/

/-- The value of `vote` over the participants in which the predicate is true (R195). -/
def voteVal (sub size w : Nat) (parts trues : List Nat) : Nat :=
  match sub with
  | 0 => if trues.isEmpty then 0 else 1
  | 1 => if trues.length = parts.length then 1 else 0
  | 2 => trues.length
  | _ =>
    let v := w % ((size + 63) / 64)
    maskOf ((trues.filter fun k => k / 64 = v).map fun k => k % 64)

/-- A predicate of a lane at the issue cycle. -/
def State.predNow (s : State) (k : Nat) (code : BitVec 9) : Bool := s.opndNow .b32 .none k code != 0

/-- `vote` (R195). -/
def execVote (f : Fields) (s : State) : Answer :=
  issueF 0x96 f s fun s f => uniform f.h (fun s =>
    let ks := s.performing f.h
    let w := if f.sub = 3 then s.sopnd .n64 f.lit f.b else 0
    let x := voteVal f.sub s.g.size w ks (ks.filter fun k => s.predNow k f.a)
    .ok (s.addPends (s.sResult (3 + s.g.passes) f.d x), .seq 1)) s

/-- `elect` (R196). -/
def execElect (f : Fields) (s : State) : Answer :=
  issueF 0x14 f s fun s f =>
    let ks := s.performing f.h
    .ok (s.addPends (s.predResults ks f.d (fun _ => s.cyc) 2 fun k => ks.head? = some k), .seq 1)

/-! ## The divergence stack and `brv` (R163 to R166, R197) -/

/-- View lane offset of stack entry e (R166, R204). -/
def State.stackOff (s : State) (e : Nat) : Nat := s.coh.cb + 256 + 16 * s.g.kn.divd * s.g.f2 + 16 * e

/-- Membership word of the physical lane l for a set of virtual lanes (R166). -/
def Gang.memberWord (g : Gang) (ks : List Nat) (l : Nat) : Nat :=
  maskOf ((ks.filter fun k => g.phys k = l).map g.pass)

/-- The divergence hardware writes entry e in every physical lane the gang occupies (R166). -/
def State.writeEntry (s : State) (e pc : Nat) (join : Option Nat) (ks : List Nat) : State :=
  let c := s.coh
  let o := c.reloc (s.stackOff e)
  let core := coreOf c.pair s.g.core
  s.poke core (s.g.physLanes.flatMap fun l =>
    (leBytes 4 pc ++ leBytes 4 (join.getD 0xFFFFFFFF) ++ leBytes 4 (s.g.memberWord ks l) ++ leBytes 4 0).zipIdx.map fun p =>
      (linOf l o + p.2, p.1))

/-- PC and join of entry e, from the origin lane's copy (R166). -/
def State.entryPc (s : State) (e : Nat) : Nat × Option Nat :=
  let c := s.coh
  let o := c.reloc (s.stackOff e)
  let bs := (s.pad (coreOf c.pair s.g.core)).readN (linOf (s.g.phys 0) o) 8
  let j := leNat (bs.drop 4)
  (leNat (bs.take 4), if j = 0xFFFFFFFF then none else some j)

/-- The members a pop takes: lanes of the gang in no slot that have not exited (R205). -/
def State.entryMembers (s : State) (e : Nat) : List Nat :=
  (s.stackMembers e).filter fun k =>
    !((s.g.lane k).exited) && !(s.g.s0.mask.testBit k) && !(s.g.s1.mask.testBit k)

/-- The lanes that take a `brv` (R164, R197). -/
def State.takers (s : State) (f : JFields) : List Nat :=
  s.g.active.filter fun k => s.guard f.h k && (s.predNow k f.d != (f.sub = 1))

/-- The number of a new thread. -/
def Gang.newThread (g : Gang) : Thread := { tid := g.nextTid, acq := { ops := [], nums := [] } }

/-- The thread of the lanes of stack entry e; a new one for an entry that a restore or a handler's frame has set up (R365, R376, log 44). -/
def Gang.entryThread (g : Gang) (e : Nat) : Thread := g.stk.getD e g.newThread

/-- The gang with the thread of entry e set, the entries below it kept. -/
def Gang.setEntryThread (g : Gang) (e : Nat) (x : Thread) : Gang :=
  { g with stk := (List.range e).map g.entryThread ++ [x] ++ g.stk.drop (e + 1), nextTid := g.nextTid + 1 }

/-- `brv` (R164, R165, R197). The lanes that it puts in the other slot or on the stack are a new thread (R170, log 44). -/
def brvBody (s : State) (f : JFields) : Except Flt (State × Flow) :=
  let t := s.cyc
  let g := s.g
  let x := g.here
  let taken := s.takers f
  let rest := g.active.filter fun k => !(taken.contains k)
  let target := branchTarget x.pc f.off
  let fall := x.pc + if f.join.isSome then 12 else 8
  let join := f.join.map fun j => (((x.pc : Int) + 4 * j.toInt) % 2 ^ 32).toNat
  let stall := f.h.stall.toNat
  if rest.isEmpty then .ok (s, .goto target)
  else if taken.isEmpty then .ok (s, .seq 1)
  else
    let y := g.slot (1 - g.cur)
    let first := t + max (1 + stall) 3
    if !y.live then
      let a := { x with mask := maskOf taken, pc := target, join := join, next := first, block := .none }
      let b := { Slot.free with mask := maskOf rest, pc := fall, join := join, live := true, next := first, tid := g.nextTid }
      .ok ({ s with g := { (g.setHere a).setSlot (1 - g.cur) b with nextTid := g.nextTid + 1 } }, .own)
    else if g.stackd ≥ g.kn.divd then .error ⟨.divstackFull, 0, 0⟩
    else
      let s := s.writeEntry g.stackd fall join rest
      let a := { x with mask := maskOf taken, pc := target, join := join, next := t + max (1 + stall) 8, block := .none }
      .ok ({ s with g := { (s.g.setHere a).setEntryThread g.stackd g.newThread with stackd := g.stackd + 1 } }, .own)

/-- `brv` (R197). -/
def execBrv (f : JFields) (s : State) : Answer := issueJ 0x05 f s fun s => brvBody s f

/-! ## Keys (R199, R200) -/

/-- `cfd` (R199): each participant receives the least lane with its key; pC marks the leaders. -/
def execCfd (f : Fields) (s : State) : Answer :=
  issueF 0xAE f s fun s f =>
    let ks := s.performing f.h
    let key (k : Nat) : Nat := s.opndNow f.ty f.lit k f.a
    let leader (k : Nat) : Nat := (ks.find? fun j => key j = key k).getD k
    let lat := s.latency (.cf 0xAE f)
    let p := s.predResults ks f.c (fun _ => s.cyc) lat fun k => leader k = k
    .ok (s.addPends (s.resultsBy (fun _ => s.cyc) (s.guard f.h) f.d 1 lat leader ++ p), .seq s.g.passes)

/-- The lanes whose values a leader adds to its own, in lane order (R200). -/
def followers (ks : List Nat) (idx : Nat → Nat) (k : Nat) : List Nat := ks.filter fun m => m > k && idx m = k

/-- `kadd` (R200). -/
def execKadd (f : Fields) (s : State) : Answer :=
  issueF 0xAF f s fun s f =>
    let ks := s.performing f.h
    let idx (k : Nat) : Nat := s.opndNow .n32 .none k f.b
    let a (k : Nat) : Nat := s.opndNow f.ty f.lit k f.a
    let sum (k : Nat) : Nat := ((followers ks idx k).zipIdx).foldl (fun acc p =>
      popVal 0 f.ty f.rnd false acc (a p.1) (rho f.rnd (s.zOf k) p.2)) (f.ty.canon (a k))
    let lat := s.latency (.cf 0xAF f)
    let res := s.resultsBy (fun _ => s.cyc) (fun k => s.guard f.h k && idx k = k) f.d 1 lat sum
    let draws := (ks.filter fun k => idx k = k).flatMap fun k => (followers ks idx k).map fun _ => k
    let s' := if f.ty = .f32 && f.rnd = 4 then s.drawLanes draws else s
    .ok (s'.addPends res, .seq s.g.passes)

/-! ## The steps of the PC slots (R167 to R169) -/

/-- The stack entries that the slots may take: in handler mode those that the handler pushed (R362, R365, log 28). -/
def Gang.ownStack (g : Gang) : Nat := g.stackd - g.hstack

/-- A slot that could issue in this cycle: live, not blocked, its STALL passed (R35, R167). -/
def Slot.couldIssue (x : Slot) (t : Nat) : Bool := x.live && !x.parked && x.block == .none && x.next ≤ t

/-- Two slots that merge in this cycle (R168); none while one waits in a blocking instruction or a `tret` (log 44). -/
def Gang.merges (g : Gang) : Bool :=
  g.s0.live && g.s1.live && g.s0.pc = g.s1.pc && g.s0.rep.nrep = 0 && g.s1.rep.nrep = 0 &&
  !(g.s0.inBlocking) && !(g.s1.inBlocking)

/-- A live slot stands at its join and the other does not merge with it (R167). -/
def Gang.parks (g : Gang) (n t : Nat) : Bool :=
  let x := g.slot n
  let y := g.slot (1 - n)
  x.couldIssue t && x.join = some x.pc && !(y.live && y.pc = x.pc)

/-- SLOT_PARK (R167): the slot parks (parkCyc is the cycle after, 0 for a slot that a frame or an image has parked: it parked earlier); a parked slot whose other slot is free and whose stack is empty issues on with no join. -/
def execSlotPark (n : Nat) (s : State) : Answer :=
  let s := s.land
  let g := s.g
  let x := g.slot n
  if x.parked && !(g.slot (1 - n)).live && g.ownStack = 0 then
    .next { s with g := g.setSlot n { x with parked := false, join := none } }
  else if g.parks n s.cyc then .next { s with g := g.setSlot n { x with parked := true, parkCyc := s.cyc + 1 } }
  else .next s

/-- A poisoned word that the divergence hardware would take into slot n ends the cohort: no instruction traps (R211, log 31). -/
def State.stackFault (s : State) (n : Nat) : Answer := .next (cohortFault { s with g := { s.g with cur := n } } .poison 0)

/-- SLOT_EXCHANGE (R167): both slots parked at different PCs. With an empty stack both issue on; else the slot that parked later, S1
on a tie, changes places with the top entry, and may issue at once (log 44). Each thread goes with its lanes (R170). -/
def execSlotExchange (s : State) : Answer :=
  let s := s.land
  let g := s.g
  if g.s0.parked && g.s1.parked && g.s0.pc != g.s1.pc then
    if g.ownStack = 0 then
      .next { s with g := { g with s0 := { g.s0 with parked := false, join := none },
                                   s1 := { g.s1 with parked := false, join := none } } }
    else
      let n := if g.s0.parkCyc > g.s1.parkCyc then 0 else 1
      let x := g.slot n
      let e := g.stackd - 1
      let y := g.entryThread e
      if s.entryPoison e true then s.stackFault n
      else
        let (pc, join) := s.entryPc e
        let ks := s.entryMembers e
        let s := s.writeEntry e x.pc none (g.lanesOf x.mask)
        let x' := if ks.isEmpty then Slot.freed s.cyc
          else { Slot.free with pc := pc, join := join, mask := maskOf ks, live := true, next := s.cyc, tid := y.tid, acq := y.acq }
        .next { s with g := (s.g.setSlot n x').setEntryThread e { tid := x.tid, acq := x.acq } }
  else .next s

/-- The merged slot (R168): a hold at issue is dropped, and the hang time with it (log 44). -/
def mergedSlot (a b : Slot) : Slot :=
  { a with mask := a.mask ||| b.mask, join := none, live := true, parked := false, next := max a.next b.next,
           wake := 0, acq := a.acq.join b.acq, block := .none }

/-- SLOT_MERGE (R168): S0 becomes the merged slot and S1 free; every access of either is before those of the merged slot (R170). -/
def execSlotMerge (s : State) : Answer :=
  let s := s.land
  let g := s.g
  if g.merges then
    let s := s.retag fun n => if n = g.s1.tid then g.s0.tid else n
    .next { s with g := { s.g with s0 := mergedSlot g.s0 g.s1, s1 := .freed s.cyc, cur := 0 } }
  else .next s

/-- STACK_POP (R169, R205): a free slot takes the top entry, with its thread; with no member left it is free again at once. -/
def execStackPop (n : Nat) (s : State) : Answer :=
  let s := s.land
  let g := s.g
  let x := g.slot n
  if !x.live && g.ownStack > 0 && g.st != .exited then
    let e := g.stackd - 1
    let y := g.entryThread e
    if s.entryPoison e true then s.stackFault n
    else
      let (pc, join) := s.entryPc e
      let ks := s.entryMembers e
      let x' := if ks.isEmpty then x
        else { Slot.free with pc := pc, join := join, mask := maskOf ks, live := true, next := x.next + 8, tid := y.tid, acq := y.acq }
      .next { s with g := { (g.setSlot n x') with stackd := e, stk := g.stk.take e, nextTid := g.nextTid + 1 } }
  else .next s

end Sys2Proof.Machine
end

