-- ==== Sys2Proof/Machine/Sync.lean ====
section
/-! DEFINITION. Fences, barrier objects and waiting (spec/11 R232 to R242), with the steps by which a blocked slot goes on:
FENCE_RELEASE, WAIT_SATISFIED, WAIT_TIMEOUT, HANG and PROMISE_MISSED. -/
namespace Sys2Proof.Machine

open Sys2Proof

/-! ## Barrier instructions (R234 to R238) -/

/-- The access of a barrier instruction to its object (R234); a failing check reports field 1, A (R364, log 30). -/
def State.barAcc (s : State) (f : Fields) : Acc := s.linAcc 1 (s.oaddr f s.cyc 0) 16

/-- The object of a barrier instruction as the issuing slot sees it (R231, R234). -/
def State.barObj (s : State) (x : Acc) : Barr := Barr.ofBytes (s.slotRead (x.span s.coh 16))

/-- The checks of R234 and R237; det is the field that BARRIER_INVALID reports. POISON reports no field (log 30). -/
def State.barCheck (s : State) (x : Acc) (kind : AccKind) (invalid : Barr → Bool) (det : Nat) : Except Flt Unit :=
  match s.checkAccs [x] 16 kind true with
  | .error e => .error (if e.cause = .poison then { e with detail := 0 } else e)
  | .ok () => if invalid (s.barObj x) then .error ⟨.barrierInvalid, det, 0⟩ else .ok ()

/-- An object whose remaining arrivals exceed its expected arrivals (R234). -/
def Barr.broken (b : Barr) : Bool := b.remaining > b.expected

/-- A barrier RMW with the order kind of its instruction (R220, R231, R238): it applies at its latency, with a `.rel` part not before the
slot's earlier accesses, and an `.acq` part holds the slot's next access. sD takes what the object then holds. -/
def barRmw (op : Nat) (s : State) (f : Fields) (x : Acc) (fxop : FxOp) (res : Option Nat) : State × Flow :=
  let due := s.cyc + s.latency (.cf op f)
  let fx : Fx :=
    { due := due, slot := s.g.tag, core := x.core, addr := x.addr s.coh, len := 16
      deps := if ordRel f.ord then s.slotOps s.g.tag false else [], op := fxop
      num := s.draws + 1, rel := ordRel f.ord, ret := if res.isSome then due else 0 }
  let ps : List Pend := match res with
    | none => []
    | some n => [{ s.result due (.s n) 0 with rmw := s.draws + 1 }]
  let s' := (s.addFxs [fx]).addPends ps
  (if ordAcq f.ord then s'.acquire [] [s.draws + 1] else s', .seq 1)

/-- The s register of a result that may be absent (R237). -/
def dOpt (d : BitVec 9) : Option Nat := if d = 0 then none else some (sIdx d)

/-- `bini` (R237). -/
def execBini (f : Fields) (s : State) : Answer :=
  issueF 0xC6 f s fun s f => uniform f.h (fun s => memAccess s fun s => do
    let x := s.barAcc f
    let c := BitVec.ofNat 32 (s.sopnd .n32 f.lit f.c)
    s.barCheck x .write (fun _ => c = 0) 3
    .ok (barRmw 0xC6 s f x (.bini c) none)) s

/-- `barv` (R237). -/
def execBarv (f : Fields) (s : State) : Answer :=
  issueF 0xC7 f s fun s f => uniform f.h (fun s => memAccess s fun s => do
    let x := s.barAcc f
    s.barCheck x .rmw (fun b => b.broken || b.remaining = 0) 1
    .ok (barRmw 0xC7 s f x (.barv (s.oaddr f s.cyc 0) (dOpt f.d)) (dOpt f.d))) s

/-- `bexp` (R237). -/
def execBexp (f : Fields) (s : State) : Answer :=
  issueF 0xC8 f s fun s f => uniform f.h (fun s => memAccess s fun s => do
    let x := s.barAcc f
    s.barCheck x .rmw Barr.broken 1
    .ok (barRmw 0xC8 s f x (.bexp (BitVec.ofNat 32 (s.sopnd .i32 f.lit f.c))) none)) s

/-- `bdrop` (R237). -/
def execBdrop (f : Fields) (s : State) : Answer :=
  issueF 0xC9 f s fun s f => uniform f.h (fun s => memAccess s fun s => do
    let x := s.barAcc f
    s.barCheck x .rmw (fun b => b.broken || b.remaining = 0 || b.expected = 0) 1
    .ok (barRmw 0xC9 s f x (.bdrop (s.oaddr f s.cyc 0) (dOpt f.d)) (dOpt f.d))) s

/-- The word that `btest` reads (R237). -/
def Barr.testWord (b : Barr) : Nat := b.control + b.remaining * 2 ^ 32

/-- `btest` (R237). -/
def execBtest (f : Fields) (s : State) : Answer :=
  issueF 0xCA f s fun s f => uniform f.h (fun s => memAccess s fun s => do
    let x := s.barAcc f
    s.barCheck x .rmw Barr.broken 1
    let s := s.settle [x.span s.coh 16]
    .ok (s.addPends (s.sResult (s.latency (.cf 0xCA f)) f.d (s.barObj x).testWord), .seq 1)) s

/-! ## Fences (R232, R233) -/

/-- Whether every access that a fence of the issuing slot covers has been performed (R233, R428). -/
def State.fenceClear (s : State) (all : Bool) : Bool :=
  (s.slotOps s.g.tag (!all)).isEmpty && !(s.g.fx.any fun x => x.slot = s.g.tag && (all || x.isRmw))

/-- `fnc` (R233): the slot blocks; FENCE_RELEASE lets it go on, in the same cycle when nothing is covered. -/
def execFnc (f : Fields) (s : State) : Answer :=
  issueF 0xC5 f s fun s f => uniform f.h (fun s =>
    .ok (s, .blocked (.fence (f.ord != 1) s.cyc (s.now + s.g.kn.hang)))) s

/-- FENCE_RELEASE (R233). -/
def execFenceRelease (n : Nat) (s : State) : Answer :=
  let s := s.atSlot n
  match s.g.here.block with
  | .fence all since _ => if s.fenceClear all then .next (completeBlocked s (max s.cyc (since + 2))) else .next s
  | _ => .next s

/-! ## Wait conditions (R239, R252) -/

/-- Whether a promised time is finite (R249). -/
def timeFinite (t : Nat) : Bool := bits t 32 16 != 0xFFFF

/-- Whether the present has passed a time (R240, R249). -/
def timePassed (now t : Nat) : Bool :=
  let d := ((now : Int) - t) % 2 ^ 48
  0 < d && d < 2 ^ 47

/-- KIND, and BODY, of a condition word (R239). -/
def condKind (w : W64) : Nat := bits w.toNat 56 8
def condBody (w : W64) : Nat := bits w.toNat 0 56

/-- The promise table entry that a promise names (R252). -/
def Gang.entryOf (g : Gang) (w : W64) : PEntry := g.prom.getD (bits w.toNat 48 8) .free

/-- Whether an entry is the promised operation's own (R252). -/
def PEntry.matches_ (e : PEntry) (w : W64) : Bool := e.eng = condKind w && e.time = bits w.toNat 0 48

/-- Whether an entry is in flight (R250, R375). -/
def PEntry.open_ (e : PEntry) : Bool := e.st = .inFlight || e.st = .reissue

/-- The consumer cohort of channel ch for a cohort of the same cluster (R269, R350). -/
def State.chanCohort (s : State) (c : Cohort) (w3 f3 : Nat) : Option Cohort :=
  s.cohorts.find? fun d => d.launch = c.launch && d.c = f3 + 2 ^ w3 * (c.c / 2 ^ w3)

/-- Channel ch as the gang's kernel declares it, with its consumer cohort and counters. -/
def State.channel (s : State) (ch : Nat) : Option (Chan × Cohort × ChanCtr) :=
  match s.g.kn.chans[ch]? with
  | none => none
  | some x =>
    match s.chanCohort s.coh (s.g.kn.width 3) x.cons with
    | none => none
    | some d => some (x, d, d.chans.getD ch .zero)

/-- F3 of the issuing cohort (R350). -/
def State.f3 (s : State) : Nat := s.coh.c % 2 ^ s.g.kn.width 3

/-- Whether the cohort may see a channel's conditions (R270). -/
def State.onChannel (s : State) (x : Chan) : Bool := s.f3 = x.prod || s.f3 = x.cons

/-- A count modulo 2^32 (R270). -/
def sub32 (a b : Nat) : Nat := (a + 2 ^ 32 - b % 2 ^ 32) % 2 ^ 32

/-- Conditions 0x82 and 0x83 (R270). -/
def ChanCtr.ready (c : ChanCtr) : Bool := sub32 c.landed c.recv != 0
def ChanCtr.slotFree (c : ChanCtr) (n : Nat) : Bool := sub32 c.sent c.rel < n

/-- Whether a child launch of the gang that was created before operation number mark is unfinished (R239). -/
def State.childrenOpen (s : State) (mark : Nat) : Bool :=
  let mine (c f id : Nat) : Bool := c = s.g.cohort && f = s.g.f2 && id < mark
  (s.launches.any fun l => match l.parent with | some (c, f, id) => mine c f id && !l.done | none => false) ||
  (s.parts.any fun p => p.childq.any fun x => mine x.cohort x.f2 x.op)

/-- The barrier object at a linear address of the pair, as the slot sees it. -/
def State.objAt (s : State) (a : Nat) : Barr := s.barObj (s.linAcc 0 a 16)

/-- Whether a condition is satisfied now (R239, R252, R270). -/
def State.condSat (s : State) (mark : Nat) (w : W64) : Bool :=
  let k := condKind w
  let b := condBody w
  if 1 ≤ k && k ≤ 0x7F then
    let e := s.g.entryOf w
    e.st = .free || !(e.matches_ w) || e.st = .completed
  else if k = 0x80 then
    bits b 48 8 = 0 && bits b 22 10 = 0 && (s.objAt (bits b 0 22)).gen != bits b 32 16
  else if k = 0x81 then bits b 48 8 = 0 && s.now ≥ bits b 0 48
  else if k = 0x82 || k = 0x83 then
    b < 16 && match s.channel b with
      | some (x, _, c) => s.onChannel x && (if k = 0x82 then c.ready else c.slotFree x.slots)
      | none => false
  else if k = 0x84 then b = 0 && !(s.childrenOpen mark)
  else false

/-- The state in which a wait looks at its barrier objects: the places of the slot's RMWs in flight on them are fixed (R213, R231). -/
def State.waitView (s : State) (conds : List W64) : State :=
  s.settle ((conds.filter fun w => condKind w = 0x80).map fun w => (s.linAcc 0 (bits w.toNat 0 22) 16).span s.coh 16)

/-- The set of satisfied conditions (R240). -/
def State.satSet (s : State) (mark : Nat) (conds : List W64) : List Nat :=
  let s := s.waitView conds
  (List.range conds.length).filter fun i => s.condSat mark (conds.getD i 0)

/-- Whether the wait's conditions let it end (R240). -/
def waitMet (all : Bool) (n : Nat) (sat : List Nat) : Bool := if all then sat.length = n else !sat.isEmpty

/-- The first fault of R241 among the satisfied promises: condition, cause. -/
def Gang.waitFault (g : Gang) (conds : List W64) (sat : List Nat) : Option (Nat × Cause) :=
  (sat.filterMap fun i =>
    let w := conds.getD i 0
    let e := g.entryOf w
    if 1 ≤ condKind w && condKind w ≤ 0x7F && e.st = .completed && e.matches_ w && !e.reported then
      if e.status = 2 || e.status = 4 then some (i, Cause.engineFault)
      else if e.status != 3 && g.itemen && e.failed != 0 then some (i, Cause.itemFault)
      else if e.status != 3 && g.lateen && e.late then some (i, Cause.slackExhausted)
      else none
    else none).head?

/-- The gang with an entry of its promise table changed. -/
def Gang.setEntry (g : Gang) (tag : Nat) (e : PEntry) : Gang := { g with prom := g.prom.set tag e }

/-- A promise condition not in sat that has passed its current promised time (R240). -/
def State.missed (s : State) (conds : List W64) (sat : List Nat) : Option Nat :=
  (List.range conds.length).find? fun i =>
    let w := conds.getD i 0
    let e := s.g.entryOf w
    !(sat.contains i) && 1 ≤ condKind w && condKind w ≤ 0x7F && e.open_ && e.matches_ w && timeFinite e.cur &&
      timePassed s.now e.cur

/-- How a wait stands at a tick, in the order of R240. -/
inductive WaitNow
  | go (sat : List Nat)
  | missed (i : Nat)
  | timeout (sat : List Nat)
  | hang (i : Nat)
  | wait
  deriving DecidableEq, Repr

/-- The test of a wait at a tick (R240). -/
def State.waitNow (s : State) (conds : List W64) (all : Bool) (limit : Option Nat) (deadline mark : Nat) : WaitNow :=
  let sat := s.satSet mark conds
  if waitMet all conds.length sat then .go sat
  else match s.missed conds sat with
    | some i => .missed i
    | none =>
      if limit.any (fun l => l ≤ s.now) then .timeout sat
      else if s.now ≥ deadline then
        .hang (((List.range conds.length).find? fun i => !(sat.contains i)).getD 0)
      else .wait

/-- The n condition words of a `wait` (R240). -/
def State.waitWords (s : State) (f : Fields) : List W64 :=
  (List.range (f.b.toNat - 352)).map fun i => s.sreg s.cyc (sIdx f.a + i)

/-- The check of a barrier condition, made at issue (R241, log 12). -/
def State.waitCheck (s : State) (conds : List W64) : Except Flt Unit :=
  (conds.zipIdx).foldlM (fun _ p =>
    if condKind p.1 = 0x80 then
      match s.barCheck (s.linAcc 0 (bits p.1.toNat 0 22) 16) .rmw Barr.broken p.2 with
      | .error e => .error { e with detail := p.2 }
      | .ok () => .ok ()
    else .ok ()) ()

/-- `wait` (R240): it reads its conditions at issue and blocks; WAIT_SATISFIED ends it, in the same cycle when they hold. No
acquire of R247 holds it (log 47). -/
def execWait (f : Fields) (s : State) : Answer :=
  issueF 0xCB f s fun s f => uniform f.h (fun s => do
    let conds := s.waitWords f
    s.waitCheck conds
    let c := s.sopnd .n64 f.lit f.c
    let lim := if c != 0 && c ≤ s.g.kn.hang then some (s.now + c) else none
    .ok (s, .blocked (.wait (sIdx f.d) conds (f.osub % 2 = 1) lim (s.now + s.g.kn.hang) s.nextOp))) s

/-- A wait ends with a result word: sD lands four cycles on, and the slot issues no earlier (R240, R242). -/
def endWait (s : State) (d : Nat) (sat : List Nat) (timeout : Bool) : State :=
  let w := maskOf sat + (if timeout then 0x100 else 0)
  let s := s.addPends [s.result (s.cyc + 4) (.s d) w]
  completeBlocked s (s.cyc + 4)

/-- WAIT_SATISFIED (R240 to R242): a fault of R241 marks its operation reported and the wait has no effect. -/
def execWaitSatisfied (n : Nat) (s : State) : Answer :=
  let s := s.atSlot n
  match s.g.here.block with
  | .wait d conds all limit deadline mark =>
    match s.waitNow conds all limit deadline mark with
    | .go sat =>
      match s.g.waitFault conds sat with
      | none => .next (endWait (s.waitView conds) d sat false)
      | some (i, cause) =>
        let w := conds.getD i 0
        let e := s.g.entryOf w
        let s := { s with g := s.g.setEntry (bits w.toNat 48 8) { e with reported := true } }
        .next (trapBlocked s ⟨cause, i, w.toNat⟩ e.opreg)
    | _ => .next s
  | _ => .next s

/-- WAIT_TIMEOUT (R240). -/
def execWaitTimeout (n : Nat) (s : State) : Answer :=
  let s := s.atSlot n
  match s.g.here.block with
  | .wait d conds all limit deadline mark =>
    match s.waitNow conds all limit deadline mark with
    | .timeout sat => .next (endWait s d sat true)
    | _ => .next s
  | _ => .next s

/-- PROMISE_MISSED (R240). -/
def execPromiseMissed (n : Nat) (s : State) : Answer :=
  let s := s.atSlot n
  match s.g.here.block with
  | .wait _ conds all limit deadline mark =>
    match s.waitNow conds all limit deadline mark with
    | .missed i => .next (trapBlocked s ⟨.promiseMissed, i, (conds.getD i 0).toNat⟩)
    | _ => .next s
  | _ => .next s

/-- Whether a `chsend` may claim a slot of channel ch: one is free and the consumer cohort is not frozen (R297, R370). -/
def State.chanOpen (s : State) (ch : Nat) : Bool :=
  match s.channel ch with
  | some (x, d, c) => c.slotFree x.slots && d.st = .resident
  | none => false

/-- What HANG reports of a slot whose hang limit has passed (R233, R240, R248, R297, R298): DETAIL and CONDW. -/
def State.hangOf (s : State) : Option (Nat × W64) :=
  match s.g.here.block with
  | .none => none
  | .wait _ conds all limit deadline mark =>
    match s.waitNow conds all limit deadline mark with
    | .hang i => some (i, conds.getD i 0)
    | _ => none
  | .fence all _ d => if s.now ≥ d && !(s.fenceClear all) then some (0, 0) else none
  | .chsend _ ch _ _ d _ =>
    if s.now ≥ d then
      some (if s.chanOpen ch then (4, 0) else (0, BitVec.ofNat 64 (0x83 * 2 ^ 56 + ch)))
    else none
  | .chrecv _ ch d _ => if s.now ≥ d then some (0, BitVec.ofNat 64 (0x82 * 2 ^ 56 + ch)) else none
  | .chrel _ _ d => if s.now ≥ d then some (0, 0) else none
  | .tret _ _ => none
  | .hold eng d _ ready => if s.now ≥ d && !ready then some (eng, 0) else none

/-- HANG (R240, R248): the blocked or held instruction has no effect. -/
def execHang (n : Nat) (s : State) : Answer :=
  let s := s.atSlot n
  match s.hangOf with
  | some (det, w) => .next (trapBlocked s ⟨.hang, det, w.toNat⟩)
  | none => .next s

end Sys2Proof.Machine
end

