-- ==== Sys2Proof/Machine/Xlate.lean ====
section
/-! DEFINITION. Global memory as an engine or a host reaches it: the two-stage translation (spec/18 R380 to R382), the address map
and home slices (spec/10 R206 to R208), page attributes (R210) and poisoned lines (R211). Item status codes are those of spec/12
R256. -/
namespace Sys2Proof.Machine

open Sys2Proof

/-- Item status codes (R256, R359, R393). -/
def codeTranslation : Nat := 1
def codePermission : Nat := 2
def codeUnmapped : Nat := 3
def codeBounds : Nat := 4
def codePoison : Nat := 5
def codeScratch : Nat := 6
def codeFabric : Nat := 7
def codeCancelled : Nat := 8
def codeRefused : Nat := 9
def codeRefusedPasid : Nat := 10
def codeRefusedFormat : Nat := 11

/-! ## Page table entries (R381) -/

/-- What an entry gives at one level. -/
inductive Pte
  | bad
  | table (addr : Nat)
  | page (p : Page)
  deriving DecidableEq, Repr

/-- The logarithm of the page size of a leaf (R380). -/
def leafSize (level : Nat) (c : Bool) : Nat := if level = 2 then 30 else if level = 1 then 21 else if c then 16 else 12

/-- An entry at a level of stage 1 or of stage 2, whose node is own (R381). -/
def pteOf (stage2 : Bool) (own level e : Nat) : Pte :=
  let c := e.testBit 7
  let leaf := e.testBit 1
  let field := bits e 12 (if stage2 then 36 else 45) * 2 ^ 12
  let node := if stage2 then bits e 48 12 else own
  if !(e.testBit 0) || bits e 8 4 != 0 || bits e 60 4 != 0 || (stage2 && (e.testBit 4 || e.testBit 5)) ||
      (c && level != 0) || (!stage2 && bits e 57 3 != 0) then .bad
  else if !leaf then
    if level = 0 || node != own then .bad else .table field
  else if level > 2 then .bad
  else
    let n := leafSize level c
    if bits e 12 (n - 12) != 0 && !c then .bad
    else .page { node := node, addr := field / 2 ^ n * 2 ^ n, size := n, r := e.testBit 2, w := e.testBit 3, sc := e.testBit 4,
                 tier := e.testBit 5, psn := e.testBit 6 }

/-- The walk of one stage over the levels listed, from a table address (R380). rd reads an entry; a walk that fails gives the item status
(R256). -/
def walk (stage2 : Bool) (own : Nat) (rd : Nat → Except Nat Nat) (va : Nat) : List Nat → Nat → Except Nat Page
  | [], _ => .error codeTranslation
  | l :: ls, t =>
    match rd (t + 8 * bits va (12 + 9 * l) 9) with
    | .error c => .error c
    | .ok e =>
      match pteOf stage2 own l e with
      | .bad => .error codeTranslation
      | .table a => walk stage2 own rd va ls a
      | .page p => .ok p

/-- The address that a page gives for va. -/
def Page.at_ (p : Page) (va : Nat) : Nat := p.addr + va % 2 ^ p.size

/-- The five levels (R380). -/
def walkLevels : List Nat := [4, 3, 2, 1, 0]

/-! ## The module's own memory (R207, R208, R211) -/

/-- Whether a local address lies in HBM, and whether in installed CXL (R207). -/
def inHbm (la : Nat) : Bool := la < 0x0090_0000_0000
def inCxl (la : Nat) : Bool := 0x0100_0000_0000 ≤ la && la < 0x0100_0000_0000 + min Config.cxlCapacity (2 ^ 43)

/-- The dies of a partition in increasing number (R403). -/
def Part.dieList (p : Part) : List Nat := (List.range Config.dies).filter fun d => p.dies.testBit d

/-- The home slice of a local address among n dies: slice within the die, and position of the die (R208). -/
def homeHash (la : Nat) : Nat :=
  let x := la / 256
  (List.range 7).foldl (fun h i => Nat.xor h (bits x (6 * i) (if i = 6 then 4 else 6))) 0

/-- The home slice of a local address in a partition, numbered 16 to a die (R208). -/
def Part.home (p : Part) (la : Nat) : Nat :=
  let h := homeHash la
  let ds := p.dieList
  16 * ds.getD (h / 16 % max 1 ds.length) 0 + h % 16

/-- The partition with this number. -/
def State.part (s : State) (n : Nat) : Part := s.parts.getD n .init

/-- The state with a partition set. -/
def State.setPart (s : State) (n : Nat) (p : Part) : State := { s with parts := s.parts.set n p }

/-- An 8-byte word of local memory. -/
def State.mem8 (s : State) (la : Nat) : Nat := leNat (s.mem.readN la 8)

/-- Whether some line of a range is poisoned (R211). -/
def State.linePoison (s : State) (la n : Nat) : Bool := s.poison.any fun l => l * 256 < la + n && la < (l + 1) * 256

/-- Bytes written to local memory: a line that is covered whole loses its poison (R211). -/
def State.writeMem (s : State) (la : Nat) (bs : List Byte) : State :=
  { s with mem := s.mem.writeN la bs
           poison := s.poison.filter fun l => !(la ≤ l * 256 && (l + 1) * 256 ≤ la + bs.length) }

/-! ## Translation (R206, R380 to R382) -/

/-- A table entry in local memory as a walker reads it: a poisoned one fails the item (R211). -/
def State.entry8 (s : State) (la : Nat) : Except Nat Nat :=
  if s.linePoison la 8 then .error codePoison else .ok (s.mem8 la)

/-- Stage 2 of a partition (R380). -/
def State.stage2 (s : State) (n ia : Nat) : Except Nat Page :=
  let p := s.part n
  walk true p.node s.entry8 ia walkLevels p.s2root

/-- Whether no fabric port is enabled, so that every read of another node fails with FABRIC (R393). -/
def State.cutOff (s : State) : Bool := bits s.mg.porten 0 16 = 0

/-- An 8-byte word at an intermediate address, as the hub reads it (R344, R380): its page must be one that is read, present and not poisoned
(R207, R210, R211). What another node holds is a free value (log 4). -/
def State.inter8 (s : State) (n ia : Nat) : Except Nat Nat :=
  match s.stage2 n ia with
  | .error c => .error c
  | .ok pg =>
    let la := pg.at_ ia
    let own := pg.node = (s.part n).node
    if !pg.r then .error codePermission
    else if own && !(inHbm la || inCxl la) then .error codeUnmapped
    else if pg.psn then .error codePoison
    else if own then s.entry8 la
    else if s.cutOff then .error codeFabric
    else .ok (Config.free s.draws ia % 2 ^ 64)

/-- The stage-1 root of a PASID (R381). -/
def State.stage1Root (s : State) (n pasid : Nat) : Except Nat Nat :=
  let a := (s.part n).pasidt + 16 * pasid
  match s.inter8 n a, s.inter8 n (a + 8) with
  | .ok e, .ok z =>
    if e.testBit 0 && bits e 1 11 = 0 && e < 2 ^ 57 && z = 0 then .ok (e / 2 ^ 12 * 2 ^ 12) else .error codeTranslation
  | .error c, _ => .error c
  | _, .error c => .error c

/-- What the tables give now: the combined translation of a virtual address (R382); PASID 0 names intermediate addresses (R396). A failed
walk gives the item status. -/
def State.walked (s : State) (n pasid va : Nat) : Except Nat Page :=
  if va ≥ 2 ^ 57 then .error codeTranslation
  else if pasid = 0 then
    (s.stage2 n va).map fun q => { q with tier := !(inHbm (q.at_ va)) }
  else match s.stage1Root n pasid with
    | .error c => .error c
    | .ok root =>
      match walk false 0 (s.inter8 n) va walkLevels root with
      | .error c => .error c
      | .ok p =>
        match s.stage2 n (p.at_ va) with
        | .error c => .error c
        | .ok q =>
          let size := min p.size q.size
          .ok { node := q.node, addr := q.at_ (p.at_ va) / 2 ^ size * 2 ^ size, size := size, r := p.r && q.r,
                 w := p.w && q.w, sc := p.sc, tier := p.tier, psn := p.psn || q.psn }

/-- The mappings that lookups of a page have found and no invalidation has removed (R382, R383). -/
def State.cached (s : State) (n pasid va : Nat) : List Page :=
  (s.tlb.filter fun e => e.part = n && e.pasid = pasid && e.va ≤ va && va < e.va + 2 ^ e.page.size).map (·.page)

/-- The translation that a lookup uses: what the tables give now or a mapping found before, which one is a free choice for each page
(R383, log 34). -/
def State.translate (s : State) (n pasid va : Nat) : Except Nat Page :=
  match s.cached n pasid va with
  | [] => s.walked n pasid va
  | ps =>
    let k := Config.free s.draws (2 ^ 64 + va / 2 ^ 12 + 2 ^ 52 * (pasid + 2 ^ 20 * n)) % (ps.length + 1)
    match ps[k]? with
    | some pg => .ok pg
    | none => s.walked n pasid va

/-- What lookups of virtual addresses find (R382): those of intermediate addresses are not kept. -/
def State.found (s : State) (n pasid : Nat) (vas : List Nat) : List TlbEntry :=
  if pasid = 0 then []
  else vas.filterMap fun va => (s.translate n pasid va).toOption.map fun pg =>
    { part := n, pasid := pasid, va := va / 2 ^ pg.size * 2 ^ pg.size, page := pg }

/-- The state with the mappings found kept for later lookups (R382). -/
def State.keep (s : State) (es : List TlbEntry) : State :=
  { s with tlb := es.foldl (fun ts e => if ts.contains e then ts else ts ++ [e]) s.tlb }

/-- How an access uses a page: it reads, it writes, or both (R210). -/
structure Use where
  rd : Bool
  wr : Bool
  deriving DecidableEq, Repr

/-- The item status of an access to an address, or where it goes: node and address there. Poison of lines is left to the home slice
(R207, R210, R256). -/
def State.reach (s : State) (n pasid va : Nat) (u : Use) : Except Nat Page :=
  match s.translate n pasid va with
  | .error c => .error c
  | .ok pg =>
    let la := pg.at_ va
    if (u.rd && !pg.r) || (u.wr && !pg.w) then .error codePermission
    else if pg.node = (s.part n).node && !(if pg.tier then inCxl la else inHbm la) then .error codeUnmapped
    else if pg.psn then .error codePoison
    else .ok pg

/-- The page base that a fault list reports (R256, R382). -/
def State.pageBase (s : State) (n pasid va : Nat) : Nat :=
  match s.translate n pasid va with
  | .error _ => va / 2 ^ 12 * 2 ^ 12
  | .ok pg => va / 2 ^ pg.size * 2 ^ pg.size

/-- Bytes read through the translation one after another, as the hub reads a record or an object; a failing byte gives its status
(R346, R348, R408). -/
def State.readVirt (s : State) (n pasid va : Nat) : Nat → Except Nat (List Byte)
  | 0 => .ok []
  | len + 1 =>
    match s.reach n pasid va { rd := true, wr := false } with
    | .error c => .error c
    | .ok pg =>
      let la := pg.at_ va
      let x : Except Nat Byte :=
        if pg.node != (s.part n).node then (if s.cutOff then .error codeFabric else .ok (BitVec.ofNat 8 (Config.free s.draws va)))
        else if s.linePoison la 1 then .error codePoison
        else .ok (s.mem.read la)
      match x, s.readVirt n pasid (va + 1) len with
      | .ok b, .ok bs => .ok (b :: bs)
      | .error c, _ => .error c
      | _, .error c => .error c

/-- Whether bytes at va lie on an SC page (R210). -/
def State.onSc (s : State) (n pasid va : Nat) : Bool := match s.translate n pasid va with | .ok pg => pg.sc | .error _ => false

/-- Bytes written through the translation: those of the partition's own node to memory, while those of another node are no memory of the module
(R396). A failing byte gives its status and writes nothing from it on. -/
def State.writeVirt (s : State) (n pasid va : Nat) : List Byte → Except Nat State
  | [] => .ok s
  | b :: bs =>
    match s.reach n pasid va { rd := false, wr := true } with
    | .error c => .error c
    | .ok pg =>
      let s := if pg.node = (s.part n).node then { s with mem := s.mem.write (pg.at_ va) b } else s
      s.writeVirt n pasid (va + 1) bs

/-- The local addresses of the partition's own node at which virtual bytes lie. -/
def State.landsAt (s : State) (n pasid va len : Nat) : List Nat :=
  (List.range len).filterMap fun i => match s.translate n pasid (va + i) with
    | .ok pg => if pg.node = (s.part n).node then some (pg.at_ (va + i)) else none
    | .error _ => none

/-- A line whose every byte one access has written loses its poison (R211). -/
def State.clearWritten (s : State) (as : List Nat) : State :=
  { s with poison := s.poison.filter fun l => !((List.range 256).all fun i => as.contains (256 * l + i)) }

end Sys2Proof.Machine
end

