-- ==== Sys2Proof/Machine/Ports.lean ====
section
/-! DEFINITION. Operations in flight by number, and what leaves the module: the fabric ports (spec/21 R393, R394) and the packets that no
operation stands behind, answers to hosts, interrupts and words written at other nodes (R396, R401). -/
namespace Sys2Proof.Machine

open Sys2Proof

/-! ## Operations in flight -/

/-- The operation with this number. -/
def State.op? (s : State) (id : Nat) : Option Op := s.ops.find? fun o => o.id == id
/-- The state with an operation changed. -/
def State.setOp (s : State) (o : Op) : State := { s with ops := s.ops.map fun x => if x.id == o.id then o else x }
/-- The operation with item number j changed. -/
def Op.setItem (o : Op) (j : Nat) (f : Item → Item) : Op := { o with items := o.items.modify j f }
/-- Items of an operation fail with a code (R256). -/
def State.failItems (s : State) (id : Nat) (js : List Nat) (code : Nat) : State :=
  match s.op? id with
  | none => s
  | some o => s.setOp (js.foldl (fun o j => o.setItem j fun i => { i with st := .failed code i.addr }) o)
/-- The answer to an element reaches its item (R245, R294). An item of a copy or of a channel message goes on once each of its packets is answered,
and keeps which bytes have failed (R253, R288). -/
def landElem (o : Op) (e : PElem) : Op :=
  o.setItem e.item fun i =>
    match e.act with
    | .failed c => { i with st := .failed c i.addr }
    | .watch _ => { i with st := .done, data := e.data }
    | _ => { i with st := .done, data := if e.data.isEmpty then i.data else e.data }

/-- The elements of a packet of a copy or of a channel message are answered: its item has one packet less to wait for. -/
def landPart (o : Op) (es : List PElem) : Op :=
  match es with
  | [] => o
  | e :: _ => o.setItem e.item fun i =>
    let bad := es.filterMap fun e => match e.act with | .failed c => some (e.va, c) | _ => none
    if i.st != .sent then i
    else { i with bad := i.bad ++ bad, left := i.left - 1, st := if i.left ≤ 1 then .applied else .sent }

/-- Whether the items of an operation take effect whole, some time after their packets are answered: those of copies and channel messages. -/
def Op.whole (o : Op) : Bool := o.eng = 1 || o.eng = 4

/-- The elements of a packet are answered. -/
def Op.land (o : Op) (es : List PElem) : Op := if o.whole then landPart o es else es.foldl landElem o

/-- The elements of a packet fail with a code (R256). -/
def State.failPacket (s : State) (p : Packet) (code : Nat) : State :=
  match s.op? p.op with
  | none => s
  | some o => s.setOp (o.land (p.elems.map fun e => { e with act := .failed code }))

/-- An operation has met a late packet (R281). -/
def State.markLate (s : State) (id : Nat) : State :=
  match s.op? id with
  | none => s
  | some o => s.setOp { o with late := true }

/-- The slack, LATE of a packet that an operation sends now (R278, R281). -/
def Op.slackNow (o : Op) (now : Nat) : Nat × Bool :=
  let used := (now - o.ti) / (if o.bg then 64 else 4)
  (o.slack - used, o.slack ≤ used)

/-- The present in half ns, the network cycle (R274). -/
def State.halfNs (s : State) : Nat := 2 * s.now + if s.half then 1 else 0

/-- The local address that a packet names first. -/
def Packet.la (p : Packet) : Nat := match p.elems with | e :: _ => e.la | [] => 0

/-! ## Packets that go out -/

/-- Data flits that follow a header, which takes 64 bytes inline: 128 bytes each, and 4 at most (R2, R276, log 13). -/
def dataFlits (bytes : Nat) : Nat := min 4 ((bytes - 64 + 127) / 128)

/-! ## Fabric ports (R393 to R395) -/

/-- The home port of packets for a node and a local address (R393). -/
def homePort (dnode la : Nat) : Nat := Nat.xor dnode (la / 256) % 16

/-- The port that packets of a home port leave by: it, or the first enabled one after it (R393). -/
def State.portFrom (s : State) (h : Nat) : Option Nat :=
  ((List.range 16).map fun i => (h + i) % 16).find? fun p => s.mg.porten.testBit p

/-- The port that a packet leaves by (R393). -/
def State.portFor (s : State) (dnode la : Nat) : Option Nat := s.portFrom (homePort dnode la)

/-- Whether a packet at a port goes to a destination: a node and a home port, on which alone its port depends (R393). -/
def Egress.to (e : Egress) (dnode h : Nat) : Bool := e.pkt.dnode = dnode && homePort dnode e.pkt.la = h

/-- Whether packets for a destination still stand at a port by which it is no longer reached (R394). -/
def State.portBusy (s : State) (dnode h : Nat) : Bool :=
  (s.ports.zipIdx).any fun x => some x.2 != s.portFrom h && x.1.q.any fun e => e.to dnode h

/-- The items of a packet that finds no enabled port fail, and its operation as a whole (R393, R255, log 45); one that serves no operation of the
module is lost. -/
def State.unreachable (s : State) (p : Packet) : State :=
  if p.leg = .out then s else
  let s := s.failPacket p codeFabric
  match s.op? p.op with
  | none => s
  | some o => s.setOp { o with poisoned := true }

/-- A packet enters the hub for another node by an input: slack in 16 ns units; it is held while earlier packets for its destination stand at
another port or are held themselves (R278, R393, R394). -/
def State.enterFabric (s : State) (input : Nat) (p : Packet) : State :=
  let h := homePort p.dnode p.la
  match s.portFrom h with
  | none => s.unreachable p
  | some n =>
    let e : Egress := { pkt := { p with slack := p.slack / 4, at_ := s.halfNs }, since := s.now, input := input }
    let wait := s.portBusy p.dnode h || (s.ports.any fun x => x.held.any fun y => y.to p.dnode h)
    { s with ports := s.ports.modify (if wait then h else n) fun x =>
        if wait then { x with held := x.held ++ [e] } else { x with q := x.q ++ [e] } }

/-- The hub's own input at its ports for what it sends for partition n, after the eight of the dies' bridges; 4 stands for the management space
(R390, log 13). -/
def hubSelf (n : Nat) : Nat := 8 + n

/-- A packet for which no operation of the module stands goes out for partition n (R393): an answer to a host, an interrupt, a word written or
read at another node. -/
def State.sendOut (s : State) (n : Nat) (p : Packet) : State := s.enterFabric (hubSelf n) p

/-- The fabric word (R393). -/
def fabricWord (pasid space ord : Nat) (resp : Bool) : Nat :=
  pasid % 2 ^ 20 + space % 4 * 2 ^ 20 + ord % 8 * 2 ^ 22 + if resp then 2 ^ 25 else 0

/-- The slack of a packet for which the manual gives none is a free value (log 4). -/
def State.freeSlack (s : State) (la : Nat) : Nat := Config.free s.draws (50000 + la) % 4096

/-- A packet that goes out from one node to another with bytes for one local address, or with the status of a refusal. No router or die of another
node is named: DRT and DDIE are 0 (log 13). -/
def outPacket (kind own dnode la fab slack : Nat) (late bg : Bool) (status : Nat) (data : List Byte) : Packet :=
  { kind := kind, dnode := dnode, ddie := 0, drt := 0, snode := own, sdie := 0, srt := 0, slack := slack, late := late, bg := bg
    ndata := dataFlits data.length, op := 0, at_ := 0, leg := .out, fab := fab
    elems := [{ item := 0, la := la, act := if status = 0 then .write data else .failed status, data := [] }] }

/-- Bytes written at another node by the hub for partition n (R344, R393, R401). -/
def State.writeOut (s : State) (n dnode la ord : Nat) (data : List Byte) : State :=
  ({ s with draws := s.draws + 1 } : State).sendOut n
    (outPacket 3 (s.part n).node dnode la (fabricWord 0 0 ord false) (s.freeSlack la) false false 0 data)

/-- What the hub itself asks another node to do with one element, for partition n: a read of a record, or an RMW on a signal object (R344,
R346, R393, R402). -/
def State.askOut (s : State) (n kind dnode la : Nat) (act : PAct) : State :=
  let p := outPacket kind (s.part n).node dnode la (fabricWord 0 0 0 false) (s.freeSlack la) false false 0 []
  ({ s with draws := s.draws + 1 } : State).sendOut n { p with elems := [{ item := 0, la := la, act := act, data := [] }] }

/-- Who asks something of the module over the fabric, and with which packet: the partition, the node it names and its own, PASID and SPACE of the
fabric word, the KIND of the answer, the address, what slack it has left, and die and router that answer: those of the address's home
slice for memory, zeros for what the hub holds (R276, R393, log 13). -/
structure Asker where
  part : Nat
  own : Nat
  src : Nat
  pasid : Nat
  space : Nat
  kind : Nat
  la : Nat
  slack : Nat
  late : Bool
  bg : Bool
  sdie : Nat := 0
  srt : Nat := 0
  deriving DecidableEq, Repr

/-- The answer to a request of another node: a packet with RESP set that takes the slack of the request, with a status or bytes (R278, R393). -/
def State.replied (s : State) (q : Asker) (status : Nat) (data : List Byte) : State :=
  s.sendOut q.part { outPacket q.kind q.own q.src q.la (fabricWord q.pasid q.space 0 true) q.slack q.late q.bg status data with
    sdie := q.sdie, srt := q.srt }

/-- The asker of a control access that is a step of its own: HNODE, with a free slack (log 13). -/
def State.hostAsker (s : State) (n la : Nat) (write : Bool) : Asker :=
  { part := n, own := (s.part n).node, src := s.mg.hnode, pasid := 0, space := 1, kind := if write then 4 else 2, la := la, slack := s.freeSlack la
    late := false, bg := false }

/-- Before a verified image runs, such an access is refused (R418). -/
def State.bootRefused (s : State) (n la : Nat) (write : Bool) : State :=
  ({ s with draws := s.draws + 1 } : State).replied (s.hostAsker n la write) codeRefusedFormat []

/-- A byte string of exactly n bytes. -/
def exactly (n : Nat) (bs : List Byte) : List Byte := (List.range n).map fun i => bs.getD i 0

/-- Bytes written through the translation to pages of other nodes go out, line by line of 256 bytes (R393, R396). -/
def State.sendVirt (s : State) (n pasid va ord : Nat) (bs : List Byte) : State :=
  let own := (s.part n).node
  let far : List (Nat × Nat × Byte) := bs.zipIdx.filterMap fun b => match s.translate n pasid (va + b.2) with
    | .ok pg => if pg.node = own then none else some (pg.node, pg.at_ (va + b.2), b.1)
    | .error _ => none
  let lines := (far.map fun x => (x.1, x.2.1 / 256)).eraseDups
  lines.foldl (fun s l =>
    let mine := far.filter fun x => x.1 = l.1 && x.2.1 / 256 = l.2
    s.writeOut n l.1 ((mine.head?.map (·.2.1)).getD 0) ord (mine.map (·.2.2))) s

/-- Bytes written through the translation by one access, with what that does to poison (R211) and what leaves the module. -/
def State.storeVirt (s : State) (n pasid va : Nat) (bs : List Byte) : Except Nat State :=
  (s.writeVirt n pasid va bs).map fun s' =>
    (if s.poison.isEmpty then s' else s'.clearWritten (s.landsAt n pasid va bs.length)).sendVirt n pasid va 0 bs

end Sys2Proof.Machine
end

