-- ==== Sys2Proof/Machine/Events.lean ====
section
/-! DEFINITION. What the hub writes for hosts to see: interrupts through the remap table (spec/21 R401), event records (R400) and
error records (spec/23 R423), with the steps ERROR_RECORD and INTERRUPT_REMAP_WRITE. -/
namespace Sys2Proof.Machine

open Sys2Proof

/-- Slice n of the module, 16 to a die. -/
def State.slice (s : State) (n : Nat) : Slice := assoc s.slices n .init
def State.setSlice (s : State) (n : Nat) (x : Slice) : State := { s with slices := assocSet s.slices n x }

/-- The held watches that a write left different from their value take it (R246). -/
def trigger (s : State) (n la len : Nat) : State :=
  let x := s.slice n
  s.setSlice n { x with watches := x.watches.map fun p =>
    { p with elems := p.elems.map fun e =>
        match e.act with
        | .watch b =>
          let v := s.mem.readN e.la 8
          if e.data.isEmpty && e.la < la + len && la < e.la + 8 && leNat v != b.toNat then { e with data := v } else e
        | _ => e } }

/-- The held watches that memory now differs from take its value (R246). -/
def State.triggerAll (s : State) : State :=
  if s.slices.all fun x => x.2.watches.isEmpty then s
  else s.slices.foldl (fun s x => x.2.watches.foldl (fun s p => p.elems.foldl (fun s e => trigger s x.1 e.la 8) s) s) s

/-- The 4 bytes of an interrupt (R401). -/
def vectorBytes (v : Nat) : List Byte := leBytes 4 (v + 0x4B43_0000)

/-- The 4-byte write of an interrupt, `.rel`, to DNODE:ADDR: in the module's own memory where DNODE is the partition's node (R401). -/
def State.deliverVector (s : State) (n v : Nat) (r : Remap) : State :=
  if r.dnode = (s.part n).node then
    if inHbm r.addr || inCxl r.addr then (s.writeMem r.addr (vectorBytes v)).triggerAll else s
  else s.writeOut n r.dnode r.addr 2 (vectorBytes v)

/-- An interrupt of a partition: sent, or held while V is 0; held ones of a vector merge (R401). -/
def State.interrupt (s : State) (n v : Nat) : State :=
  let p := s.part n
  match p.remap[v]? with
  | none => s
  | some r =>
    if r.v then s.deliverVector n v r
    else s.setPart n { p with remap := p.remap.set v { r with pend := true } }

/-- An event record of 64 bytes (R400). -/
def eventBytes (kind queue seq cohort cause gang pc : Nat) (word : W64) (time : Nat) : List Byte :=
  leBytes 1 kind ++ leBytes 1 queue ++ leBytes 2 0 ++ leBytes 4 seq ++ leBytes 4 cohort ++ leBytes 4 cause ++ leBytes 4 gang ++
  leBytes 4 pc ++ leBytes 8 word.toNat ++ leBytes 8 time ++ leBytes 24 0

/-- An event enters the ring of 63 entries and sends vector 0 (R400). -/
def State.event (s : State) (n : Nat) (bytes : List Byte) : State :=
  let p := s.part n
  let i := p.nevents % 63
  let evs := if i < p.events.length then p.events.set i bytes else p.events ++ [bytes]
  (s.setPart n { p with events := evs, nevents := p.nevents + 1 }).interrupt n 0

/-- Whether a partition owns a unit of the error records: the hub's units belong to every partition (R390, R423). -/
def Part.owns (p : Part) (hub : Bool) (die : Nat) : Bool := p.en && (hub || p.dies.testBit die)

/-- The 32 bytes of an error record (R423). -/
def errorBytes (cls part unit count addr time seq : Nat) : List Byte :=
  leBytes 1 cls ++ leBytes 1 part ++ leBytes 2 unit ++ leBytes 4 (min count 0xFFFFFFFF) ++ leBytes 8 addr ++ leBytes 8 time ++ leBytes 8 seq

/-- A record of the ring by its sequence number. -/
def Mgmt.recordAt (m : Mgmt) (seq : Nat) : List Byte := m.ring.getD (seq % 256) []

/-- The sequence number that a record of a unit takes now, h at most: of the n records before it, those of the same time with higher units come
after it (R423, log 48). -/
def Mgmt.seqOf (m : Mgmt) (now unit : Nat) : Nat → Nat → Nat
  | 0, h => h
  | n + 1, h =>
    let r := m.recordAt (h - 1)
    if h > 0 && leNat ((r.drop 16).take 8) = now && unit < leNat ((r.drop 2).take 2) then m.seqOf now unit n (h - 1) else h

/-- A record in the ring under a sequence number, over the oldest one of a full ring. -/
def Mgmt.setRecord (m : Mgmt) (seq : Nat) (r : List Byte) : Mgmt :=
  let i := seq % 256
  let bytes := r.take 24 ++ leBytes 8 seq
  { m with ring := if i < m.ring.length then m.ring.set i bytes else m.ring ++ [bytes] }

/-- A record enters the ring (R423). -/
def Mgmt.record (m : Mgmt) (now unit : Nat) (r : List Byte) : Mgmt :=
  let k := m.seqOf now unit m.ring.length m.head
  let later := (List.range (m.head - k)).map fun i => m.recordAt (k + i)
  let full := m.ring.length = 256
  let m' := ((r :: later).zipIdx).foldl (fun m x => m.setRecord (k + x.2) x.1) m
  { m' with head := m.head + 1, lost := m.lost + if full then 1 else 0 }

/-- An error record is written to the ring and sends vector 3 to every partition that owns the unit (R423). -/
def State.errorRec (s : State) (cls part unit count addr : Nat) : State :=
  let s : State := { s with mg := s.mg.record s.now (unit % 2 ^ 16) (errorBytes cls part unit count addr s.now s.mg.head) }
  (List.range s.parts.length).foldl (fun s n =>
    if (s.part n).owns (part = 0xFF) (bits unit 14 2) then s.interrupt n 3 else s) s

/-- The part of a pair's matrix memory that an address of its error unit names: 128 rows of each tile, 128 B blocks of each core, 128 rows of
scores (log 31). -/
def matUnitPart (a : Nat) : MatPart :=
  if a < 512 then .acc (a / 128) (a % 128) else if a < 768 then .block ((a - 512) / 128) (a % 128) else .score (a % 128)

/-- What an uncorrectable event marks poisoned: the line of its local address, unless it names a core's scratchpad by a unit below 48, where
it marks the word at that linear address, or a pair's matrix memory by one of the 24 units after those (R211, R316, log 31). -/
def State.spoilUnit (s : State) (hub : Bool) (unit addr : Nat) : State :=
  let die := bits unit 14 2
  let u := bits unit 0 14
  if !hub && u < 48 && addr < 2 ^ 21 then { s with spoison := s.spoison ++ [(48 * die + u, addr / 4 * 4)] }
  else if !hub && 48 ≤ u && u < 72 && addr < 896 then
    let n := 24 * die + (u - 48)
    s.setPair n { s.pair n with psn := ((s.pair n).psn.filter (· != matUnitPart addr)) ++ [matUnitPart addr] }
  else { s with poison := if s.poison.contains (addr / 256) then s.poison else s.poison ++ [addr / 256] }

/-- ERROR_RECORD (R423, R211): a detected event is recorded; an uncorrectable one (class 3) marks what it names poisoned. -/
def execErrorRecord (cls part unit count addr : Nat) (s : State) : Answer :=
  let s' := s.errorRec cls part unit count addr
  .next (if cls = 3 then s'.spoilUnit (part = 0xFF) unit addr else s')

/-- INTERRUPT_REMAP_WRITE (R401): a held interrupt is delivered once V becomes 1. While port 0 is in boot mode it is refused as every packet
(R418). -/
def execInterruptRemapWrite (n vector word : Nat) (value : BitVec 64) (s : State) : Answer :=
  let p := s.part n
  if s.mg.status != 2 then .next (s.bootRefused n (0x22000 + 16 * vector + 8 * word) true)
  else match p.remap[vector]? with
  | none => .next s
  | some r =>
    let r' := if word = 0 then { r with v := value.getLsbD 0, dnode := bits value.toNat 16 12 }
      else { r with addr := bits value.toNat 0 48 / 4 * 4 }
    let s := s.setPart n { p with remap := p.remap.set vector r' }
    if r'.v && r'.pend then
      let s := s.setPart n { s.part n with remap := (s.part n).remap.set vector { r' with pend := false } }
      .next (s.interrupt n vector)
    else .next s

end Sys2Proof.Machine
end

