-- ==== Sys2Proof/Machine/Net.lean ====
section
/-! DEFINITION. The network of a die, slack, the home slices, the CXL links and the fabric ports (spec/12 R271 to R283, spec/10
R222, spec/11 R246, spec/21 R388 to R395), with their steps. Times that packets spend moving are left free (log 7). -/
namespace Sys2Proof.Machine

open Sys2Proof

/-! ## Routers (R271, R272, R275) -/

/-- The router of a core pair within its die, of a slice, of a bridge (R271). -/
def pairRouter (p : Nat) : Nat := 1 + p % 4 + 6 * (1 + p / 4)
def sliceRouter (j : Nat) : Nat := (if j < 8 then 0 else 5) + 6 * (j % 8)
def bridgeRouter (b : Nat) : Nat := 1 + b % 4 + 6 * (if b < 4 then 0 else 7)

/-- Ports: 0 north, 1 east, 2 south, 3 west, 4 local. South is the way of increasing ry (log 13). -/
def portLocal : Nat := 4

/-- The output of a packet at router r for router t of the same die (R272). -/
def routeOut (r t : Nat) : Nat :=
  let dx := (t % 6 + 6 - r % 6) % 6
  let dy := (t / 6 + 8 - r / 6) % 8
  if dx != 0 then (if dx ≤ 3 then 1 else 3)
  else if dy != 0 then (if dy ≤ 4 then 2 else 0)
  else portLocal

/-- The router that an output leads to, and the input it enters there (R271). -/
def hopTo (r out : Nat) : Nat × Nat :=
  let x := r % 6
  let y := r / 6
  match out with
  | 0 => (x + 6 * ((y + 7) % 8), 2)
  | 1 => ((x + 1) % 6 + 6 * y, 3)
  | 2 => (x + 6 * ((y + 1) % 8), 0)
  | 3 => ((x + 5) % 6 + 6 * y, 1)
  | _ => (r, 4)

/-- The router of die d that a packet makes for, for the own node `node` (R388). -/
def Packet.target (p : Packet) (node d : Nat) : Nat :=
  if p.dnode != node then bridgeRouter (if p.srt / 6 ≤ 3 then 0 else 4)
  else if p.ddie = d then p.drt
  else if (p.ddie + 4 - d) % 4 ≤ 2 then bridgeRouter (1 + p.srt % 3)
  else bridgeRouter (5 + p.srt % 3)

/-- The die that a packet crosses to from die d (R388). -/
def Packet.nextDie (p : Packet) (d : Nat) : Nat := if (p.ddie + 4 - d) % 4 ≤ 2 then (d + 1) % 4 else (d + 3) % 4

/-- Router r of the module (48 to a die); one that no packet has touched was powered off after 256 network cycles (R275). -/
def State.router (s : State) (r : Nat) : Router := assoc s.routers r { Router.init with on := s.now < 128 }
/-- The state with a router set. -/
def State.setRouter (s : State) (r : Nat) (x : Router) : State := { s with routers := assocSet s.routers r x }

/-- A powered-off router is ready 12 ns after its wake (R275). -/
def State.wake (s : State) (r : Nat) : State :=
  let x := s.router r
  if x.on || x.wakeAt.isSome then s.setRouter r x else s.setRouter r { x with wakeAt := some (s.halfNs + 24) }

/-- The router that a packet at router r goes on to, across the die's edge too (R272, R388); r itself at its end. -/
def Packet.next (p : Packet) (node r : Nat) : Nat :=
  let d := r / 48
  let out := routeOut (r % 48) (p.target node d)
  if out != portLocal then 48 * d + (hopTo (r % 48) out).1
  else if p.dnode = node && p.ddie != d then 48 * p.nextDie d + r % 48
  else r

/-- A packet enters input port q of router r; route computation wakes the router and the next two on its path (R275). -/
def State.enterRouter (s : State) (node r q : Nat) (p : Packet) : State :=
  let p := { p with at_ := s.halfNs }
  let x := s.router r
  let s := s.setRouter r { x with bufs := x.bufs.modify q fun b => b ++ [p] }
  let r1 := p.next node r
  ((s.wake r).wake r1).wake (p.next node r1)

/-- Packets in an input buffer of a router. -/
def Router.load (x : Router) (q : Nat) : Nat := (x.bufs.getD q []).length

/-- The slice at a router, by its position (R271). -/
def sliceAt (r : Nat) : Option Nat :=
  if r % 6 = 0 then some (r / 6) else if r % 6 = 5 then some (8 + r / 6) else none

/-- Whether a router is one of the bridges. -/
def isBridge (r : Nat) : Bool := (r / 6 = 0 || r / 6 = 7) && r % 6 != 0 && r % 6 != 5

/-- The own node of the partition that a packet's operation belongs to. -/
def State.packetNode (s : State) (p : Packet) : Nat :=
  match s.op? p.op with
  | some o => (s.part o.part).node
  | none => p.snode

/-- Whether a kind is a reply (R276). -/
def isReply (k : Nat) : Bool := k = 2 || k = 4 || k = 6 || k = 9

/-- Whether a packet ends at its router with no slice to serve it: a reply, or channel data at the consumer's pair (R276, R297). -/
def Packet.landing (p : Packet) : Bool := isReply p.kind || p.kind = 11

/-- The CXL link of a local address: 256-byte lines are interleaved over four links (R391). -/
def cxlLinkOf (la : Nat) : Nat := la / 256 % 4

/-- Whether the head packet of input q of router r may leave by output out: the bubble rule of R273 between buffers, a free place at
the slice (R283) or beyond the bridge. -/
def State.mayGrant (s : State) (r q out : Nat) : Bool :=
  match ((s.router r).bufs.getD q []).head? with
  | none => false
  | some p =>
    let d := r / 48
    let node := s.packetNode p
    let t := p.target node d
    routeOut (r % 48) t = out &&
    if out = portLocal then
      if p.landing && p.dnode = node && p.ddie = d then true
      else if p.leg = .hub then (s.cxl.getD (cxlLinkOf p.la) { q := [], last := 12, sent := [], failed := 0, rx := [] }).q.length < 256
      else if isBridge (r % 48) then
        p.dnode != node || (s.router (48 * p.nextDie d + r % 48)).load portLocal < 4
      else match sliceAt (r % 48) with
        | some j => (s.slice (16 * d + j)).q.length < 128
        | none => true
    else
      let (r', q') := hopTo (r % 48) out
      let straight := q = (out + 2) % 4 && q != portLocal
      (s.router (48 * d + r')).load q' + (if straight then 1 else 2) ≤ 4

/-- The input that an output arbiter grants: least SLACK, ties round-robin after the port last granted (R280). -/
def State.arbiter (s : State) (r out : Nat) : Option Nat :=
  let x := s.router r
  let ins := ((List.range 5).map fun i => (x.last.getD out 4 + 1 + i) % 5).filter fun q => s.mayGrant r q out
  let slack (q : Nat) : Nat := match (x.bufs.getD q []).head? with | some p => p.slack | none => 4096
  let least := ins.foldl (fun m q => min m (slack q)) 4096
  ins.find? fun q => slack q = least

/-! ## Replies at their pair (R278, R281, R287) -/

/-- A reply, or channel data, lands; a late one makes its operation late (R281). -/
def State.landReply (s : State) (p : Packet) : State :=
  match s.op? p.op with
  | none => s
  | some o => s.setOp { o.land p.elems with late := o.late || p.late }

/-- The input of the hub that bridge router r leads to (R271). -/
def hubInput (r : Nat) : Nat := 2 * (r / 48) + if r % 48 = bridgeRouter 0 then 0 else 1

/-- The bridge router by which a packet from the hub enters its die: 0 where its destination has ry ≤ 3, else 4 (log 13). -/
def Packet.bridgeIn (p : Packet) : Nat := 48 * p.ddie + bridgeRouter (if p.drt / 6 ≤ 3 then 0 else 4)

/-- A request for a CXL line joins the queue of its link, from an input of the hub (R392). -/
def State.toLink (s : State) (input : Nat) (p : Packet) : State :=
  { s with cxl := s.cxl.modify (cxlLinkOf p.la) fun l => { l with q := l.q ++ [{ pkt := { p with at_ := s.halfNs }, since := s.now, input := input }] } }

/-- The request of a slice's queue for which a packet fetches the line. -/
def Packet.fetches (p : Packet) (y : Packet × Served) : Bool := y.2 = .asked && y.1.op = p.op && y.1.elems == p.elems

/-- Lines of the CXL tier in the 4 MiB of a slice cache (R2, R391). Which line a full cache gives up is given nowhere: the one fetched first (DESIGN
CHOICE, log 13). -/
def Slice.keepLine (x : Slice) (l : Nat) : List Nat :=
  let rest := x.held.filter (· != l)
  rest.drop (rest.length + 1 - 16384) ++ [l]

/-- A CXL line reaches slice n, whose cache holds it from now on: the request that waits for it has it. One that comes late makes its operation
late (R281, R391). -/
def State.lineCome (s : State) (n : Nat) (p : Packet) : State :=
  let x := s.slice n
  let s := s.setSlice n { x with held := x.keepLine (p.la / 256), q := x.q.map fun y => if p.fetches y then (y.1, .ready) else y }
  if p.late then s.markLate p.op else s

/-- A packet leaves by the local output of router r (R271, R388). -/
def State.deliver (s : State) (r : Nat) (p : Packet) : State :=
  let d := r / 48
  let node := s.packetNode p
  let at_ (f : Nat → State) : State := match sliceAt (r % 48) with | some j => f (16 * d + j) | none => s
  match p.leg with
  | .hub => s.toLink (hubInput r) p
  | .line => at_ fun n => s.lineCome n p
  | .net | .out =>
    if p.dnode != node then s.enterFabric (hubInput r) p
    else if p.ddie != d then s.enterRouter node (48 * p.nextDie d + r % 48) portLocal p
    else if p.landing then s.landReply p
    else at_ fun n =>
      let x := s.slice n
      s.setSlice n { x with q := x.q ++ [({ p with at_ := s.halfNs }, .queued)] }

/-! ## Reduce packets and their merging (R222, R295) -/

/-- The reduce variants of `sct` (R295): new value of the element's bytes. -/
def ropNew (rop old v : Nat) : Nat :=
  match rop with
  | 1 => aopNew 0 old v 0 | 2 => aopNew 1 old v 0 | 3 => aopNew 6 old v 0
  | 4 =>
    let f := Ty.bf16.fmt
    let half (i : Nat) : Nat := roundFV f 0 false (FV.add 0 (f.val (bits old (16 * i) 16)) (f.val (bits v (16 * i) 16))) 0
    half 0 + half 1 * 2 ^ 16
  | 5 => aopNew 2 old v 0 | 6 => aopNew 3 old v 0 | 7 => aopNew 7 old v 0
  | 8 => aopNew 4 old v 0 | 9 => aopNew 5 old v 0 | 10 => aopNew 8 old v 0
  | 11 => aopNew 9 old v 0 | 12 => aopNew 10 old v 0 | 13 => aopNew 11 old v 0
  | _ => v

/-- The bytes of an element: address and length. -/
def PElem.span (e : PElem) : Nat × Nat :=
  match e.act with
  | .read n => (e.la, n)
  | .write bs => (e.la, bs.length)
  | .rmw aop _ _ _ => (e.la, aopBytes aop)
  | .red _ bs => (e.la, bs.length)
  | .watch _ => (e.la, 8)
  | .copy bs => (e.la, bs.length)
  | .failed _ => (e.la, 0)

/-- Two adjacent reduce packets on the same bytes with the same operation, of one element each (R222): the first carries both operands, and
the second is left to answer its operation, failing where the first fails. -/
def mergeable (p q : Packet) : Option (Packet × Packet) :=
  match p.kind, q.kind, p.elems, q.elems with
  | 7, 7, [a], [b] =>
    if a.span != b.span then none
    else match a.act, b.act with
      | .rmw aop x e true, .rmw aop' y _ true =>
        if aop = aop' then
          some ({ p with elems := [{ a with act := .rmw aop (BitVec.ofNat 64 (aopNew aop x.toNat y.toNat 0)) e true }] },
                { q with elems := [{ b with act := .read b.span.2 }] })
        else none
      | .red r x, .red r' y =>
        if r = r' then
          some ({ p with elems := [{ a with act := .red r (leBytes x.length (ropNew r (leNat x) (leNat y))) }] },
                { q with elems := [{ b with act := .read b.span.2 }] })
        else none
      | _, _ => none
  | _, _, _, _ => none

/-- Adjacent reduce packets at the head of a queue merge, or not: a free choice (R222, R224). -/
def mergeHead (draws : Nat) (q : List (Packet × Served)) : List (Packet × Served) :=
  match q with
  | (p, u) :: (r, v) :: rest =>
    if Config.free draws 21 % 2 = 0 || u = .asked || v = .asked then q
    else match mergeable p r with
      | some (p', r') => (p', u) :: (r', v) :: rest
      | none => q
  | _ => q

/-- The same in a router's buffer, for packets to one node (R222). -/
def mergeFront (draws : Nat) (q : List Packet) : List Packet :=
  match q with
  | p :: r :: rest =>
    if Config.free draws 24 % 2 = 0 || p.dnode != r.dnode then q
    else match mergeable p r with
      | some (p', r') => p' :: r' :: rest
      | none => q
  | _ => q

/-- ROUTER_GRANT (R222, R272, R273, R280): the arbiter of an output grants a packet, which goes on to the next buffer; it may merge with the
reduce packet behind it. -/
def execRouterGrant (r out : Nat) (s : State) : Answer :=
  let x := s.router r
  if !x.on then .next s
  else match s.arbiter r out with
    | none => .next s
    | some q =>
      match mergeFront s.draws (x.bufs.getD q []) with
      | [] => .next s
      | p :: rest =>
        let s := ({ s with draws := s.draws + 1 } : State).setRouter r { x with bufs := x.bufs.set q rest, last := x.last.set out q, idle := s.halfNs }
        if out = portLocal then .next (s.deliver r p)
        else
          let (r', q') := hopTo (r % 48) out
          .next (s.enterRouter (s.packetNode p) (48 * (r / 48) + r') q' p)

/-- Whether a router's arbiters and switch have granted nothing for 256 network cycles (R275). -/
def State.canPowerOff (s : State) (r : Nat) : Bool :=
  let x := s.router r
  x.on && s.halfNs ≥ x.idle + 256

/-- ROUTER_POWER_OFF (R275); the packets that stand in its buffers wake it again (log 13). -/
def execRouterPowerOff (r : Nat) (s : State) : Answer :=
  let x := s.router r
  .next (if s.canPowerOff r then
    s.setRouter r { x with on := false, wakeAt := if x.bufs.all List.isEmpty then none else some (s.halfNs + 24) } else s)

/-- ROUTER_WAKE (R275). -/
def execRouterWake (r : Nat) (s : State) : Answer :=
  let x := s.router r
  match x.wakeAt with
  | some t => .next (if t ≤ s.halfNs then s.setRouter r { x with on := true, wakeAt := none, idle := s.halfNs } else s)
  | none => .next s

/-! ## Slack (R277 to R281) -/

/-- One tick at sidereal time now for a packet that waits where slack falls every step ns (R279, R281). -/
def Packet.tick (p : Packet) (now step : Nat) : Packet :=
  if now % step != 0 || 2 * now ≤ p.at_ then p
  else if p.slack = 0 then p
  else { p with slack := p.slack - 1, late := p.late || p.slack = 1 }

/-- The tick of a packet on the module: every 4 ns, of a background one every 64 ns (R279). -/
def Packet.tickOn (p : Packet) (now : Nat) : Packet := p.tick now (if p.bg then 64 else 4)

/-- The tick at a fabric port: every 16 ns, of a background packet too (R395, log 13). -/
def Egress.tick (now : Nat) (e : Egress) : Egress := { e with pkt := e.pkt.tick now 16 }

/-- SLACK_TICK (R279): every waiting packet loses slack at multiples of 4 ns. -/
def execSlackTick (s : State) : Answer :=
  let t := s.now
  if t % 4 != 0 || s.half || s.tickAt = t then .next s
  else .next { s with
    tickAt := t
    routers := s.routers.map fun x => (x.1, { x.2 with bufs := x.2.bufs.map fun b => b.map fun p => p.tickOn t })
    slices := s.slices.map fun x => (x.1, { x.2 with
      q := x.2.q.map fun y => (if y.2 = .queued then y.1.tickOn t else y.1, y.2) })
    cxl := s.cxl.map fun x => { x with q := x.q.map (fun e => { e with pkt := e.pkt.tickOn t }), rx := x.rx.map fun p => p.tickOn t }
    ports := s.ports.map fun x => { x with
      q := x.q.map (Egress.tick t), held := x.held.map (Egress.tick t), rx := x.rx.map fun p => p.tickOn t } }

/-! ## Home slices (R222, R246, R283) -/

/-- Whether two packets share a byte (R222). -/
def Packet.meets (p q : Packet) : Bool :=
  p.elems.any fun a => q.elems.any fun b =>
    a.span.1 < b.span.1 + b.span.2 && b.span.1 < a.span.1 + a.span.2

/-- Whether a slice has no place for one more watch: it holds 64, those among them that it has served and not yet compared (R246). -/
def Slice.watchFull (x : Slice) : Bool := x.watches.length + (x.q.filter fun y => y.1.kind = 8 && y.2 != .queued).length ≥ 64

/-- The requests that a slice may serve now: not behind an earlier one that shares a byte, with the least slack; or within 16 units of it to the
open row of its bank (R222, R283). A watch that finds no place waits in the queue with its slack (R246). Banks and rows are nowhere given, so
that which request meets an open row is a free choice (log 13). -/
def Slice.servable (x : Slice) (draws : Nat) : List Nat :=
  let free := (List.range x.q.length).filter fun i =>
    match x.q[i]? with
    | some (p, Served.queued) => !((x.q.take i).any fun y => y.1.meets p) && !(p.kind = 8 && x.watchFull)
    | _ => false
  let slack (i : Nat) : Nat := match x.q[i]? with | some (p, _) => p.slack | none => 0
  let least := free.foldl (fun m i => min m (slack i)) 4096
  let openRow (i : Nat) : Bool := Config.free draws (2000 + i) % 2 = 1
  free.filter fun i => slack i = least || (openRow i && slack i ≤ least + 16)

/-- The request that a slice makes of the hub for a line of the CXL tier; its slack is that of a request sent now (R271, R278, R392). -/
def State.lineRequest (s : State) (n : Nat) (p : Packet) : Packet :=
  let (slack, late) := match s.op? p.op with
    | some o => o.slackNow s.now
    | none => (p.slack, p.late)
  let rt := sliceRouter (n % 16)
  let node := s.packetNode p
  { p with kind := 1, leg := .hub, dnode := node, ddie := n / 16, drt := bridgeRouter (if rt / 6 ≤ 3 then 0 else 4)
           snode := node, sdie := n / 16, srt := rt, slack := slack, late := p.late || late, ndata := 0 }

/-- Whether the router of a slice has a free buffer for a packet of it (R273). -/
def State.replyRoom (s : State) (n : Nat) : Bool := (s.router (48 * (n / 16) + sliceRouter (n % 16))).load portLocal < 4

/-- A packet leaves its slice. -/
def State.fromSlice (s : State) (n : Nat) (p : Packet) : State :=
  s.enterRouter (s.packetNode p) (48 * (n / 16) + sliceRouter (n % 16)) portLocal p

/-- Whether the cache of a slice still holds a line of the CXL tier; when it gives one up is a free choice (R391, log 13). -/
def Slice.holdsLine (x : Slice) (draws l : Nat) : Bool := x.held.contains l && Config.free draws (60000 + l) % 2 = 0

/-- SLICE_SERVE (R283): a request is served, which one is a free choice among those allowed; for a line of the CXL tier that its cache does
not hold the slice asks the hub, once its router has a buffer (R271, R273, R391, R392). -/
def execSliceServe (n : Nat) (s : State) : Answer :=
  let x := s.slice n
  match x.servable s.draws with
  | [] => .next s
  | is =>
    let i := is.getD (Config.free s.draws 20 % is.length) 0
    match x.q[i]? with
    | none => .next s
    | some (p, _) =>
      let s : State := { s with draws := s.draws + 1 }
      let here := inHbm p.la || x.holdsLine s.draws (p.la / 256)
      if !here && !(s.replyRoom n) then .next s
      else
        let s := if p.late then s.markLate p.op else s
        if here then .next (s.setSlice n { x with q := x.q.set i (p, .ready) })
        else .next ((s.setSlice n { x with q := x.q.set i (p, .asked), held := x.held.filter (· != p.la / 256) }).fromSlice n (s.lineRequest n p))

/-- One element operation at its home slice (R211, R222): what the reply carries. -/
def applyElem (s : State) (e : PElem) : State × PElem :=
  let (la, n) := e.span
  let old := s.mem.readN la n
  let bad := s.linePoison la n
  match e.act with
  | .read _ => if bad then (s, { e with act := .failed codePoison }) else (s, { e with data := old })
  | .write bs => (s.writeMem la bs, e)
  | .rmw aop opd exp red =>
    if bad then (s, { e with act := .failed codePoison })
    else (s.writeMem la (leBytes n (aopNew aop (leNat old) opd.toNat exp.toNat)), { e with data := if red then [] else old })
  | .red rop bs =>
    if bad then (s, { e with act := .failed codePoison })
    else (s.writeMem la (leBytes n (ropNew rop (leNat old) (leNat bs))), e)
  | .watch _ => if bad then (s, { e with act := .failed codePoison }) else (s, { e with data := old })
  | .failed _ | .copy _ => (s, e)

/-- Whether an element writes memory. -/
def PElem.writes (e : PElem) : Bool := match e.act with | .write _ | .rmw _ _ _ _ | .red _ _ => true | _ => false

/-- Element operations of a packet in lane order (R222). -/
def applyElems (n : Nat) : List PElem → State → State × List PElem
  | [], s => (s, [])
  | e :: es, s =>
    let (s, e') := applyElem s e
    let s := if e.writes then trigger s n e.span.1 e.span.2 else s
    let (s, es') := applyElems n es s
    (s, e' :: es')

/-- The reply to a request: it takes what slack, LATE and BG the request had when served (R276, R278). -/
def Packet.reply (p : Packet) (elems : List PElem) : Packet :=
  { p with
    kind := match p.kind with | 1 => 2 | 3 | 7 | 10 => 4 | 5 => 6 | _ => 9
    ndata := dataFlits ((elems.map fun e => e.data.length).sum)
    dnode := p.snode, ddie := p.sdie, drt := p.srt, snode := p.dnode, sdie := p.ddie, srt := p.drt, elems := elems }

/-- The items of a packet have been applied at their home slice (R233), but for those that take effect whole later. -/
def State.applied (s : State) (p : Packet) : State :=
  match s.op? p.op with
  | none => s
  | some o => if o.whole then s else s.setOp (p.elems.foldl (fun o e => o.setItem e.item fun i => { i with st := .applied }) o)

/-- Whether a watch is over: its word differs, or it failed (R246). -/
def PElem.over (e : PElem) : Bool := !e.data.isEmpty || match e.act with | .failed _ => true | _ => false

/-- The first comparison of a watch: it differs and completes, or the slice holds it (R246, R429); one that has no buffer for its reply yet is
held with its word. -/
def watchStart (s : State) (n : Nat) (p : Packet) (es : List PElem) : State :=
  let es := es.map fun e => match e.act with
    | .watch b => if leNat e.data = b.toNat then { e with data := [] } else e
    | _ => e
  if es.any PElem.over && s.replyRoom n then s.fromSlice n (p.reply es)
  else
    let x := s.slice n
    let s := s.setSlice n { x with watches := x.watches ++ [{ p with elems := es }] }
    match s.op? p.op with
    | some o => s.setOp { o with items := o.items.map fun i => { i with st := .applied } }
    | none => s

/-- SLICE_APPLY (R222): the first served request of the slice is applied and answered, once its reply has a free buffer. -/
def execSliceApply (n : Nat) (s : State) : Answer :=
  let x := s.slice n
  let q := mergeHead s.draws x.q
  match q.find? fun y => y.2 = .ready with
  | none => .next s
  | some (p, _) =>
    if !(s.replyRoom n) then .next s
    else
      let s := ({ s with draws := s.draws + 1 } : State).setSlice n { x with q := q.erase (p, .ready) }
      let (s, es) := applyElems n p.elems s
      if p.kind = 8 then .next (watchStart s n p es) else .next ((s.applied p).fromSlice n (p.reply es))

/-- WATCH_COMPLETE (R246): a held watch that is over is answered, once its reply has a free buffer (R273). -/
def execWatchComplete (id : Nat) (s : State) : Answer :=
  match s.slices.find? fun y => y.2.watches.any fun p => p.op = id && p.elems.any PElem.over with
  | none => .next s
  | some (n, x) =>
    match x.watches.find? fun p => p.op = id with
    | none => .next s
    | some p =>
      if !(s.replyRoom n) then .next s
      else
        let s := s.setSlice n { x with watches := x.watches.filter fun y => y.op != id }
        .next (s.fromSlice n (p.reply p.elems))

/-! ## CXL (R391, R392) -/

/-- The line that answers a request for it, on its way back to the slice. -/
def Packet.lineBack (p : Packet) : Packet :=
  { p with kind := 2, leg := .line, ddie := p.sdie, drt := p.srt, srt := p.drt, ndata := dataFlits 256 }

/-- The pair router, slice router or hub from which an operation's packets go: those of a COPY packet are the hub's own (R346). -/
def Op.ofHub (o : Op) : Bool := o.core = 1024

/-- What waits in the hub to enter a die at bridge router r, the first of each input with its slack: inputs 0 to 3 are the CXL links, 4 to 19 the
fabric ports, 20 on the hub's own, by partition (R279, R388, R390). -/
def State.hubHeads (s : State) (r : Nat) : List (Nat × Nat) :=
  let first (ps : List Packet) : Option Nat := (ps.find? fun p => p.bridgeIn = r).map (·.slack)
  let own (n : Nat) : Option Nat := (s.ops.find? fun o => o.ofHub && o.part = n && !o.out.isEmpty).bind fun o =>
    (o.out.find? fun p => p.dnode = p.snode && p.bridgeIn = r).map fun _ => (o.slackNow s.now).1
  (s.cxl.zipIdx.filterMap fun x => (first x.1.rx).map fun k => (x.2, k)) ++
  (s.ports.zipIdx.filterMap fun x => (first x.1.rx).map fun k => (4 + x.2, k)) ++
  (List.range s.parts.length).filterMap fun n => (own n).map fun k => (20 + n, k)

/-- The input that the port from the hub to bridge router r grants: the least SLACK, ties round-robin by number after the one last granted; none
while the router has no free buffer (R273, R280, R388; the order: log 13). -/
def State.hubGrant (s : State) (r : Nat) : Option Nat :=
  if (s.router r).load portLocal ≥ 4 then none
  else
    let hs := s.hubHeads r
    let least := hs.foldl (fun m h => min m h.2) 4096
    ((List.range 24).map fun i => (s.hubLast.getD (hubInput r) 23 + 1 + i) % 24).find? fun i => hs.any fun h => h.1 = i && h.2 = least

/-- A packet that the port of the hub to bridge router r has granted to input i enters its die. -/
def State.enterDie (s : State) (i : Nat) (p : Packet) : State :=
  ({ s with hubLast := s.hubLast.set (hubInput p.bridgeIn) i } : State).enterRouter (s.packetNode p) p.bridgeIn portLocal p

/-- The first of some packets, all of input i, that the ports of the hub grant. -/
def State.hubReady (s : State) (i : Nat) (ps : List Packet) : Option Packet := ps.find? fun p =>
  s.hubGrant p.bridgeIn = some i && (ps.find? fun q => q.bridgeIn = p.bridgeIn) = some p

/-- The request that a link sends: the least SLACK, ties going round the inputs of the hub from the one after that last granted, in the order in
which each input's came (R280, R388, R392). -/
def CxlLink.grant (l : CxlLink) : Option Egress :=
  let least := l.q.foldl (fun m e => min m e.pkt.slack) 4096
  (((List.range 13).map fun i => (l.last + 1 + i) % 13)).findSome? fun i => l.q.find? fun e => e.input = i && e.pkt.slack = least

/-- What a CXL link does next, of what it may: its expander answers a sent request (1 on), at a time and in an order of its own (log 7); a line
that has come enters its die (0); or none of both, and the link sends a request. -/
def State.cxlTurn (s : State) (n : Nat) (l : CxlLink) : Option Nat :=
  let enters : List Nat := if (s.hubReady n l.rx).isSome then [0] else []
  let acts := enters ++ (List.range l.sent.length).map (· + 1)
  let k := Config.free s.draws 27 % (acts.length + 1)
  if l.q.isEmpty && k = acts.length then acts.head? else acts[k]?

/-- CXL_SEND (R392): a link sends a request; or the answer of its expander to a sent one comes; or one that has come enters its die by its bridge
(R271, R388). -/
def execCxlSend (n : Nat) (s : State) : Answer :=
  match s.cxl[n]? with
  | none => .next s
  | some l =>
    let s' : State := { s with draws := s.draws + 1 }
    match s.cxlTurn n l with
    | some 0 => match s.hubReady n l.rx with
      | none => .next s
      | some p => .next (({ s' with cxl := s.cxl.set n { l with rx := l.rx.erase p } } : State).enterDie n p)
    | some (k + 1) => match l.sent[k]? with
      | none => .next s
      | some y => .next { s' with cxl := s.cxl.set n { l with sent := l.sent.erase y, rx := l.rx ++ [{ y.1.lineBack with at_ := s.halfNs }] } }
    | none => match l.grant with
      | none => .next s
      | some e =>
        let l' : CxlLink := { l with q := l.q.erase e, last := e.input, sent := l.sent ++ [(e.pkt, s.now)] }
        let s : State := { s' with cxl := s.cxl.set n l' }
        .next (if e.pkt.late then s.markLate e.pkt.op else s)

/-- A link has left a request for an address without a response: the hub counts it as failed in the error records (R392). -/
def State.linkFailed (s : State) (n la : Nat) : State :=
  match s.cxl[n]? with
  | none => s
  | some l => ({ s with cxl := s.cxl.set n { l with failed := l.failed + 1 } } : State).errorRec 5 0xFF n (l.failed + 1) la

/-- CXL_RESPONSE_TIMEOUT (R392): a request without a response for 100 µs fails its items; the link is counted, not disabled. -/
def execCxlResponseTimeout (n : Nat) (s : State) : Answer :=
  match s.cxl[n]? with
  | none => .next s
  | some l =>
    match l.sent.find? fun y => y.2 + 100000 ≤ s.now with
    | none => .next s
    | some (p, t) =>
      let drop (y : Slice) : Slice := { y with q := y.q.filter fun z => !(z.1.op = p.op && z.1.elems == p.elems) }
      let s : State := { s with cxl := s.cxl.set n { l with sent := l.sent.erase (p, t) }, slices := s.slices.map fun y => (y.1, drop y.2) }
      let s := s.failPacket p codeFabric
      .next (s.linkFailed n p.la)

/-! ## What the hub reads for itself (R346, R348, R390, R402) -/

/-- The CXL line among virtual bytes whose link leaves the request for it without a response, if one does: a free choice for a line that no slice
cache holds (R392, log 7). -/
def State.silentLine (s : State) (n pasid va len : Nat) : Option Nat :=
  (s.landsAt n pasid va len).find? fun la =>
    inCxl la && !((s.slice ((s.part n).home la)).holdsLine s.draws (la / 256)) && Config.free s.draws (70000 + cxlLinkOf la) % 2 = 1

/-- Bytes that the hub reads through the translation: a line that a silent link should bring fails with FABRIC (R392). -/
def State.hubGet (s : State) (n pasid va len : Nat) : Except Nat (List Byte) :=
  match s.silentLine n pasid va len with
  | some _ => .error codeFabric
  | none => s.readVirt n pasid va len

/-- The reads of other nodes' lines that this takes go out, 256 bytes each (R276, R393). -/
def State.askVirt (s : State) (n pasid va len : Nat) : State :=
  let far := (List.range len).filterMap fun i => match s.translate n pasid (va + i) with
    | .ok pg => if pg.node = (s.part n).node then none else some (pg.node, pg.at_ (va + i))
    | .error _ => none
  ((far.map fun x => (x.1, x.2 / 256)).eraseDups).foldl (fun s l =>
    let mine := (far.filter fun x => x.1 = l.1 && x.2 / 256 = l.2).map (·.2)
    s.askOut n 1 l.1 (mine.headD 0) (.read mine.length)) s

/-- What a read of the hub, made in state v, leaves: its requests to other nodes, and the count of a link that stayed silent (R392, R393). -/
def State.hubTouch (s v : State) (n pasid va len : Nat) : State :=
  let s := s.askVirt n pasid va len
  match v.silentLine n pasid va len with
  | some la => s.linkFailed (cxlLinkOf la) la
  | none => s

/-! ## Ports (R393 to R395) -/

/-- What another node answers to an element: a watch fails, and a node may refuse; bytes it holds are a free value (R402, log 4). -/
def remoteElem (draws : Nat) (e : PElem) : PElem :=
  match e.act with
  | .watch _ => { e with act := .failed codeFabric }
  | .read n =>
    if Config.free draws (100 + 64 * e.item) % 2 = 0 then { e with act := .failed codeFabric }
    else { e with data := leBytes n (Config.free draws (101 + 64 * e.item)) }
  | .rmw aop _ _ red =>
    if Config.free draws (100 + 64 * e.item) % 2 = 0 then { e with act := .failed codeFabric }
    else { e with data := if red then [] else leBytes (aopBytes aop) (Config.free draws (101 + 64 * e.item)) }
  | _ => if Config.free draws (100 + 64 * e.item) % 2 = 0 then { e with act := .failed codeFabric } else e

/-- The bytes that an element carries out of the module. -/
def PElem.carried (e : PElem) : List Byte :=
  match e.act with
  | .write bs => bs
  | .red _ bs => bs
  | .copy bs => bs
  | .rmw aop opd _ _ => leBytes (aopBytes aop) opd.toNat
  | _ => []

/-- Bytes 0 to 7 of a packet's header (R276). -/
def Packet.word (p : Packet) : Nat :=
  p.drt + p.ddie * 2 ^ 6 + p.dnode * 2 ^ 8 + p.srt * 2 ^ 20 + p.sdie * 2 ^ 26 + p.snode * 2 ^ 28 + p.slack * 2 ^ 40 +
  (if p.bg then 2 ^ 52 else 0) + (if p.late then 2 ^ 53 else 0) + p.ndata * 2 ^ 54 + p.kind * 2 ^ 57

/-- The operand fields of an element in a header: AOP or ROP, then operand and expected value (log 13). -/
def PElem.operands (e : PElem) : List Byte :=
  match e.act with
  | .rmw aop opd exp _ => leBytes 8 aop ++ leBytes 8 opd.toNat ++ leBytes 8 exp.toNat
  | .red rop _ => leBytes 8 rop
  | .watch b => leBytes 8 b.toNat
  | _ => []

/-- Bytes 16 to 23 of a header: ENG, TAG, pair and gang of an operation (R276, log 13). -/
def Op.headerBytes (o : Op) : List Byte := leBytes 1 o.eng ++ leBytes 1 o.tag ++ leBytes 2 (o.core / 2) ++ leBytes 4 o.f2

/-- The header of a packet, its 64 inline bytes included; who names what issued it (R276; the places within bytes 16 to 23 and 32 to 63:
log 13). -/
def Packet.header (p : Packet) (who : List Byte) : List Byte :=
  let enables := (List.range 64).foldl (fun m i => m + if p.elems.any fun e => e.span.1 % 64 ≤ i && i < e.span.1 % 64 + e.span.2 then 2 ^ i else 0) 0
  leBytes 8 p.word ++ leBytes 8 p.la ++ who ++ leBytes 8 enables ++
  ((p.elems.flatMap PElem.operands) ++ leBytes 32 0).take 32 ++ ((p.elems.flatMap PElem.carried) ++ leBytes 64 0).take 64

/-- The order kind of a single access, as R60 codes it. -/
def Op.ordKind (o : Op) : Nat := if o.eng = 3 then bits o.word.toNat 0 3 else 0

/-- The status that an answer to a host carries: 0 when it refuses nothing (R393). -/
def Packet.status (p : Packet) : Nat :=
  match p.elems with
  | { act := .failed c, .. } :: _ => c
  | _ => 0

/-- What goes out of a port for a packet: header, fabric word and data (R393). -/
def State.sentOut (s : State) (p : Packet) : Reply :=
  let (who, fab) := if p.leg = .out then (leBytes 8 0, p.fab)
    else match s.op? p.op with
      | some o => (o.headerBytes, fabricWord o.pasid 0 o.ordKind false)
      | none => (leBytes 8 0, 0)
  { node := p.dnode, status := p.status, addr := p.la, ord := bits fab 22 3
    data := p.header who ++ leBytes 8 fab ++ (p.elems.flatMap PElem.carried).drop 64 }

/-- The packet that a port grants: the least slack among the first of each input; ties go round the inputs, by number, from the one after that
last granted (R280, R388; the order: log 13). -/
def Port.grant (x : Port) : Option Egress :=
  let heads := ((List.range 13).map fun i => (x.last + 1 + i) % 13).filterMap fun i => x.q.find? fun e => e.input = i
  let least := heads.foldl (fun m e => min m e.pkt.slack) 4096
  heads.find? fun e => e.pkt.slack = least

/-- The packet that has come from the fabric by port n and enters its die now, if one may (R388). -/
def State.rxReady (s : State) (n : Nat) (x : Port) : Option Packet := s.hubReady (4 + n) x.rx

/-- What another node answers to a packet: its slack is at most what it left with, and is taken 4 times; 0 makes it late (R278, R395). -/
def Packet.remote (p : Packet) (draws now : Nat) : Packet :=
  let f := Config.free draws 29 % (p.slack + 1)
  { p.reply (p.elems.map (remoteElem draws)) with slack := 4 * f, late := p.late || f = 0, at_ := now }

/-- FABRIC_EGRESS_GRANT (R395): a packet leaves by a port, as header, fabric word and data, and what its node answers to an operation comes
to the hub; or one that
has come goes on into its die by its bridge (R271). Which of the two is a free choice. -/
def execFabricEgressGrant (n : Nat) (s : State) : Answer :=
  match s.ports[n]? with
  | none => .next s
  | some x =>
    let grant := if x.up then x.grant else none
    if (s.rxReady n x).isSome && (grant.isNone || Config.free s.draws 30 % 2 = 1) then
      match s.rxReady n x with
      | none => .next s
      | some p => .next (({ s with draws := s.draws + 1, ports := s.ports.set n { x with rx := x.rx.erase p } } : State).enterDie (4 + n) p)
    else match grant with
      | none => .next s
      | some e =>
        let p := e.pkt
        let x' : Port := { x with q := x.q.erase e, last := e.input, rx := if p.leg = .out then x.rx else x.rx ++ [p.remote s.draws s.halfNs] }
        let s : State := { s with ports := s.ports.set n x', draws := s.draws + 1, replies := s.replies ++ [s.sentOut p] }
        if p.leg = .out then .next s else
        .next (if p.late then s.markLate p.op else s)

/-- FABRIC_PORT_TIMEOUT (R394): a packet that has waited 100 µs at a port whose link is down fails its items. -/
def execFabricPortTimeout (n : Nat) (s : State) : Answer :=
  match s.ports[n]? with
  | none => .next s
  | some x =>
    if x.up then .next s
    else match x.q.find? fun e => e.since + 100000 ≤ s.now with
      | none => .next s
      | some e =>
        let s' : State := { s with ports := s.ports.set n { x with q := x.q.erase e } }
        .next (if e.pkt.leg = .out then s' else s'.failPacket e.pkt codeFabric)

/-- FABRIC_LINK_DOWN (R394). -/
def execFabricLinkDown (n : Nat) (s : State) : Answer :=
  match s.ports[n]? with
  | none => .next s
  | some x =>
    let s' : State := { s with ports := s.ports.set n { x with up := false } }
    if x.up then .next (s'.errorRec 7 0xFF n 1 0) else .next s

/-- FABRIC_LINK_RETURN (R394). -/
def execFabricLinkReturn (n : Nat) (s : State) : Answer :=
  match s.ports[n]? with
  | none => .next s
  | some x =>
    let s' : State := { s with ports := s.ports.set n { x with up := true } }
    if x.up then .next s else .next (s'.errorRec 7 0xFF n 1 0)

/-- FLIT_RETRANSMIT (R393, R423): counted, in one record per port per ms, and never visible to programs. -/
def execFlitRetransmit (n : Nat) (s : State) : Answer :=
  match s.ports[n]? with
  | none => .next s
  | some x =>
    let old := s.mg.ring.findIdx? fun r => leNat (r.take 1) = 4 && leNat ((r.drop 2).take 2) = n && leNat ((r.drop 16).take 8) / 1000000 = s.now / 1000000
    let s : State := { s with ports := s.ports.set n { x with retx := x.retx + 1 } }
    match old with
    | none => .next (s.errorRec 4 0xFF n 1 0)
    | some i =>
      let up (r : List Byte) : List Byte := r.take 4 ++ leBytes 4 (min 0xFFFFFFFF (leNat ((r.drop 4).take 4) + 1)) ++ r.drop 8
      .next { s with mg := { s.mg with ring := s.mg.ring.modify i up } }

/-- The packets held for a destination whose old port is clear go on by its port; with none enabled they fail (R393, R394). -/
def State.releaseHeld (s : State) (dnode h : Nat) : State :=
  if s.portBusy dnode h then s
  else
    let es := ((s.ports.getD h { q := [], last := 0, up := true, retx := 0, held := [], rx := [] }).held).filter fun e => e.to dnode h
    let s : State := { s with ports := s.ports.modify h fun x => { x with held := x.held.filter fun e => !(e.to dnode h) } }
    match s.portFrom h with
    | none => es.foldl (fun s e => s.unreachable e.pkt) s
    | some n => { s with ports := s.ports.modify n fun x => { x with q := x.q ++ es.map fun e => { e with since := s.now } } }

/-- PORT_SWITCH_RELEASE (R394): the packets held for a node go on by the ports of their destinations, where those are clear. -/
def execPortSwitchRelease (node : Nat) (s : State) : Answer :=
  .next ((List.range 16).foldl (fun s h => s.releaseHeld node h) s)

end Sys2Proof.Machine
end

