-- ==== Sys2Proof/Machine/Engine.lean ====
section
/-! DEFINITION. What every engine operation shares at issue (spec/12 R248 to R251, R257 to R261, R277, spec/13 R285, R286): the limits,
the tag, the promised time, the locks, the auxiliary word, and when an operation may begin its accesses. -/
namespace Sys2Proof.Machine

open Sys2Proof

/-! ## Promises (R249 to R251, R277) -/

/-- The launch of the issuing gang's cohort. -/
def State.myLaunch (s : State) : Option Launch := s.launch? s.coh.launch
/-- PASID and partition of the issuing gang (R343). -/
def State.myPasid (s : State) : Nat := (s.myLaunch.map (·.pasid)).getD 0
def State.myPart (s : State) : Nat := (s.myLaunch.map (·.part)).getD 0

/-- Operations in flight that an engine may hold (R248). -/
def engLimit : Nat → Nat
  | 3 => 256
  | 5 => 4
  | _ => 64

/-- Operations of an engine in flight that count against the issuing gang's limit (R248). -/
def State.engCount (s : State) (eng : Nat) : Nat :=
  (s.ops.filter fun o => o.eng = eng && (if eng = 6 then o.cohort = s.g.cohort && o.f2 = s.g.f2 else o.core / 2 = s.coh.pair)).length

/-- The initial slack and BG of a class (R277). -/
def slackOf (slackdef cls est : Nat) : Nat × Bool :=
  let c := if cls = 0 then slackdef else cls
  if c = 14 then (4095, true) else if c = 13 then (min 4095 (est / 4), false) else (2 ^ c - 1, false)

/-- A finite promised time, reduced and replaced (R251). -/
def fixTime (t : Nat) : Nat := let t := t % 2 ^ 48; if timeFinite t then t else 0

/-- A never-missed time (R251). -/
def neverTime (issues : Nat) : Nat := 0xFFFF * 2 ^ 32 + issues % 2 ^ 32

/-- The tag that the next operation takes (R250). -/
def Gang.nextTag (g : Gang) : Nat := match g.lastTag with | none => 0 | some t => (t + 1) % 256

/-- The promised time that the entry of a tag allows (R251): 1 ns more when the entry's last operation has the same. -/
def Gang.timeFor (g : Gang) (tag eng t : Nat) : Nat :=
  let e := g.prom.getD tag .free
  let t := fixTime t
  if e.st != .free && e.eng = eng && e.time = t then fixTime (t + 1) else t

/-- The word of a promise (R249). -/
def promiseWord (eng tag time : Nat) : Nat := eng * 2 ^ 56 + tag * 2 ^ 48 + time % 2 ^ 48

/-- Whether the class of an instruction is 14 (R277). -/
def State.background (s : State) (cls : Nat) : Bool := (if cls = 0 then s.g.slackdef else cls) = 14

/-- The region entry that an operation records (R367, R368). -/
def State.opEntry (s : State) (h : Hdr) : Nat := if h.region then s.g.here.pc else s.g.regpc

/-- An operation as an instruction of opcode opc hands it over, before its tag and time. -/
def State.opBase (s : State) (opc eng : Nat) (f : Fields) : Op :=
  { id := s.nextOp, eng := eng, tag := 0, cohort := s.g.cohort, f2 := s.g.f2, slot := s.g.tag, core := coreOf s.coh.pair s.g.core,
    pasid := s.myPasid, part := s.myPart, ti := s.now, slack := 0, bg := false, late := false, word := encFields opc f, aval := 0,
    bval := 0, cval := 0, aux := 0, rec1 := List.replicate 32 0, rec2 := List.replicate 32 0, z := s.zOf 0, items := [],
    failedBefore := 0, listed := 0, bytes := 0, opreg := s.opEntry f.h, time := 0, waited := false, probed := false, pins := [],
    deps := [], rel := false, issued := s.draws, icyc := s.cyc, dur := 0, started := none, mask := 0, src := [],
    poisoned := false, tfault := false, cancelled := false }

/-! ## Locks (R257 to R261) -/

/-- Whether two locked ranges overlap (R258, R259). -/
def LockRange.meets : LockRange → LockRange → Bool
  | .lanes ls lo hi, .lanes ms lo' hi' => lo ≤ hi' && lo' ≤ hi && ls.any fun l => ms.contains l
  | .blocks a n, .blocks b m => a < b + m && b < a + n
  | _, _ => false

/-- The pair's cycle of a core of the module. -/
def State.coreCyc (s : State) (core : Nat) : Nat := (s.pair (core / 2)).cyc

/-- Whether a later lock waits on an earlier one (R260). -/
def Lock.conflicts (x y : Lock) : Bool := x.core = y.core && (x.dst || y.dst) && x.range.meets y.range

/-- The earlier-registered operations that an operation waits on (R261). -/
def State.lockWaits (s : State) (id : Nat) : Bool :=
  (s.locks.filter fun x => x.op = id).any fun x => s.locks.any fun y => y.op < id && x.conflicts y

/-- Whether the tables have room for an operation's locks (R257). -/
def State.lockRoom (s : State) (ls : List Lock) : Bool :=
  ls.all fun x => (s.locks.filter fun y => y.core = x.core).length + (ls.filter fun y => y.core = x.core).length ≤ 64

/-- A lock that the operation issued now registers: in force from the next core cycle of its core on (R260). -/
def State.newLock (s : State) (core : Nat) (dst : Bool) (r : LockRange) : Lock :=
  { op := s.nextOp, core := core, dst := dst, since := s.coreCyc core + 1, range := r }

/-- The lock over the physical lanes a gang occupies, view lane offsets lo to hi (R258, R377). -/
def State.laneLock (s : State) (dst : Bool) (lo hi : Nat) : Lock :=
  s.newLock (coreOf s.coh.pair s.g.core) dst (.lanes s.g.physLanes (s.coh.reloc lo) (s.coh.reloc hi))

/-- The lock over a linear range of the pair in a cohort's view (R258, R377). -/
def State.linLock (s : State) (c : Cohort) (core : Nat) (dst : Bool) (a n : Nat) : Lock :=
  let last := a + n - 1
  let lo := offOf a / 16 * 16
  let range := if a / 4096 = last / 4096 then
      let l0 := laneOf a
      .lanes ((List.range (laneOf last + 1 - l0)).map (· + l0)) (c.reloc lo) (c.reloc lo + 15)
    else .lanes (List.range 256) (c.reloc lo) (c.reloc (offOf last / 16 * 16 + 15))
  s.newLock core dst range

/-- The core that bit 21 of a linear address names (R203). -/
def State.coreFor (s : State) (a : Nat) : Nat := coreOf s.coh.pair ((s.g.core + a / 2 ^ 21) % 2)

/-- The lock over n bytes from a 22-bit linear address of the pair on; none for no bytes. -/
def State.padLock (s : State) (dst : Bool) (a n : Nat) : List Lock :=
  if n = 0 then [] else [s.linLock s.coh (s.coreFor a) dst (a % 2 ^ 21) n]

/-- Whether every byte of a linear range of one core lies in the allocation (R205). -/
def Cohort.linInside (c : Cohort) (a n : Nat) : Bool :=
  n = 0 || (a % 2 ^ 21 + n ≤ 2 ^ 21 &&
    let lo := a % 2 ^ 21
    let hi := lo + n - 1
    -- every byte of the range lies between the offsets of its first and last 4,096-byte blocks
    c.inside (lo / 4096 * 16) 16 && c.inside (hi / 4096 * 16) 16)

/-! ## Issue (R248, R250, R257, R286) -/

/-- An operation takes its tag and its locks, and its promise lands in sD eight cycles on; or the instruction is held at issue. t is
the finite promised time, never whether the time is never missed. -/
def State.issueOp (s : State) (d : BitVec 9) (o : Op) (locks : List Lock) (t : Nat) (never : Bool) : State × Flow :=
  let tag := s.g.nextTag
  if s.engCount o.eng ≥ engLimit o.eng || (s.g.prom.getD tag .free).open_ || !(s.lockRoom locks) then
    (s, .held o.eng (.room (locks.map (·.core))))
  else
    let time := if never then neverTime s.g.issues else s.g.timeFor tag o.eng t
    let o := { o with tag := tag, time := time }
    let entry : PEntry :=
      { PEntry.free with st := .inFlight, eng := o.eng, time := time, cur := time, opreg := o.opreg, status := 0xFF,
                         items := o.items.length }
    let s' : State := { s with ops := s.ops ++ [o], locks := s.locks ++ locks, nextOp := s.nextOp + 1,
                               g := { s.g.setEntry tag entry with lastTag := some tag } }
    let s' := s'.setOp { o with waited := !(s'.lockWaits o.id) }
    (s'.addPends [s.result (s.cyc + 8) (.s (sIdx d)) (promiseWord o.eng tag time)], .seq 1)

/-- As `issueOp` with the slack class and the time of R251: E is the service estimate. -/
def State.issueEst (s : State) (f : Fields) (o : Op) (locks : List Lock) (est : Nat) (never : Bool) : State × Flow :=
  let (sl, bg) := slackOf s.g.slackdef f.slk est
  s.issueOp f.d { o with slack := sl, bg := bg } locks (s.now + min (est + 4 * sl) (2 ^ 46)) (never || s.background f.slk)

/-- An instruction that completes at issue takes a tag whose entry is completed (R315, R334). -/
def State.issueDone (s : State) (f : Fields) (eng : Nat) : State × Flow :=
  let tag := s.g.nextTag
  if (s.g.prom.getD tag .free).open_ then (s, .held eng .tag)
  else
    let time := s.g.timeFor tag eng s.now
    let entry : PEntry := { PEntry.free with st := .completed, eng := eng, time := time, cur := time, opreg := s.opEntry f.h }
    let s' : State := { s with g := { s.g.setEntry tag entry with lastTag := some tag } }
    (s'.addPends [s.result (s.cyc + 8) (.s (sIdx f.d)) (promiseWord eng tag time)], .seq 1)

/-! ## The auxiliary word (R285) -/

/-- FLA, FLC, BARA, BAREN of an auxiliary word (R285). -/
def auxFla (w : W64) : Nat := bits w.toNat 0 22
def auxFlc (w : W64) : Nat := bits w.toNat 22 10
def auxBara (w : W64) : Nat := bits w.toNat 32 22
def auxBaren (w : W64) : Bool := w.getLsbD 63

/-- The auxiliary word of an instruction: 0 with AUX 0 (R285). -/
def State.auxWord (s : State) (f : Fields) : W64 := if f.esub % 2 = 1 then s.sreg s.cyc (sIdx f.d + 1) else 0

/-- Step 3 of R286 for the auxiliary word. -/
def auxDesc (w : W64) : Except Flt Unit := if bits w.toNat 54 9 = 0 then .ok () else .error ⟨.descInvalid, 4, 0⟩

/-- Step 4 of R286 for the fault list and the barrier. -/
def State.auxCheck (s : State) (w : W64) : Except Flt Unit :=
  let fl := auxFlc w != 0
  if (fl && auxFla w % 16 != 0) || (auxBaren w && auxBara w % 16 != 0) then .error ⟨.misaligned, 4, 0⟩
  else if (fl && !(s.coh.linInside (auxFla w) (16 * (auxFlc w + 1)))) || (auxBaren w && !(s.coh.linInside (auxBara w) 16)) then
    .error ⟨.scratchBounds, 4, 0⟩
  else .ok ()

/-- The lock of the fault list (R257, R285). -/
def State.auxLock (s : State) (w : W64) : List Lock :=
  if auxFlc w = 0 then [] else s.padLock true (auxFla w) (16 * (auxFlc w + 1))

/-! ## When an operation may begin its accesses (R219, R247, R261) -/

/-- The gang with this cohort and number, wherever it stands. -/
def State.gang? (s : State) (cohort f2 : Nat) : Option Gang :=
  if s.g.cohort = cohort && s.g.f2 = f2 then some s.g else s.others.find? fun g => g.cohort == cohort && g.f2 == f2

/-- Whether a scratchpad effect touches a locked range, or the barrier object of an operation. -/
def Fx.inOp (x : Fx) (s : State) (o : Op) : Bool :=
  (s.locks.any fun l => l.op = o.id && l.covers x.core (laneOf x.addr) (offOf x.addr) x.len) ||
  (auxBaren o.aux && x.meets (coreOf (o.core / 2) ((o.core + auxBara o.aux / 2 ^ 21) % 2))
    (linOf (laneOf (auxBara o.aux % 2 ^ 21)) ((s.cohort o.cohort).reloc (offOf (auxBara o.aux % 2 ^ 21)))) 16)

/-- Whether effects in flight that its slot issued earlier come before an operation's accesses: those on its bytes, with a `.rel` part all
(R219, R247). -/
def State.fxBefore (s : State) (o : Op) : Bool :=
  match s.gang? o.cohort o.f2 with
  | none => false
  | some g => g.fx.any fun x => x.slot = o.slot && x.num ≤ o.issued && (o.rel || x.inOp s o)

/-- Whether an operation's accesses may begin (R219, R247, R261): its lock wait is over, and what comes before it is performed. -/
def State.opGo (s : State) (o : Op) : Bool := o.waited && !(o.deps.any s.opOpen) && !(s.fxBefore o)

/-- Whether what held the issuing slot's instruction at issue by engine e is over: the accesses it waited for (R247), the engine's
limit, the tag and the lock tables (R248, R250, R257), or the tag. -/
def State.holdOver (s : State) (e : Nat) (why : HoldFor) : Bool :=
  let free := !((s.g.prom.getD s.g.nextTag .free).open_)
  s.g.here.next ≤ s.cyc && match why with
  | .acq => s.acqLeft.ops.isEmpty && s.acqLeft.nums.isEmpty
  | .tag => free
  | .room cores => s.engCount e < engLimit e && free && cores.all fun c =>
      (s.locks.filter fun y => y.core = c).length + (cores.filter fun d => d = c).length ≤ 64

/-- ENGINE_ISSUE_HOLD_END (R248, R257): a held instruction issues again, a cycle or more after it was held; it may be held anew. -/
def execEngineIssueHoldEnd (n : Nat) (s : State) : Answer :=
  let s := s.atSlot n
  match s.g.here.block with
  | .hold e d why false => if s.holdOver e why then .next (s.setHere { s.g.here with block := .hold e d why true }) else .next s
  | _ => .next s

end Sys2Proof.Machine
end

