-- ==== Sys2Proof/Machine/Global.lean ====
section
/-! DEFINITION. The single global accesses `gld`, `gst`, `gatom` and `watch` (spec/11 R243 to R247). -/
namespace Sys2Proof.Machine

open Sys2Proof

/-- The global address that lane k names (R244): a pair of v registers, or one s register for every lane. -/
def State.globalAddr (s : State) (f : Fields) (k : Nat) : Nat :=
  match Opnd.ofCode f.a.toNat with
  | .v n => s.vregs s.cyc k n 2
  | .s n => (s.sreg s.cyc n).toNat
  | _ => 0

/-- The lane offset of lane k's scratchpad side (R244, R294). -/
def State.sideOff (s : State) (f : Fields) (k : Nat) : Nat := ofInt 64 (s.offset f.lit s.cyc k f.b)

/-- The checks of R27 on the lane sides, without RANGE_BUSY (R245, R294): aligned to n, len bytes long. -/
def State.sideCheck (s : State) (ks : List Nat) (off : Nat → Nat) (n len : Nat) : Except Flt Unit :=
  match ks.find? fun k => off k % n != 0 with
  | some k => .error ⟨.misaligned, k, 0⟩
  | none =>
    match ks.find? fun k => !(s.coh.inside (off k) len) with
    | some k => .error ⟨.scratchBounds, k, 0⟩
    | none => .ok ()

/-- The first of the bytes on the scratchpad side of lane k that the slot finds poisoned (R211, R288). -/
def State.sidePoison (s : State) (k off len : Nat) : Option Nat :=
  if s.spoison.isEmpty then none
  else (List.range len).find? fun i =>
    s.slotPoison (coreOf s.coh.pair s.g.core) (linOf (s.g.phys k) (s.coh.reloc (off + i))) 1

/-- The bytes that an operation reads in lane k as its slot sees them: its own effects in flight that come first are laid over (R219). -/
def State.sideData (s : State) (k off len : Nat) : List Byte := s.asSeen.laneRead (s.g.phys k) off len

/-- The lock over the lane sides of an operation (R245, R258, R294). -/
def State.sideLock (s : State) (ks : List Nat) (off : Nat → Nat) (len : Nat) (dst : Bool) : List Lock :=
  match ks with
  | [] => []
  | k :: _ =>
    let lo := ks.foldl (fun m j => min m (off j)) (off k)
    let hi := ks.foldl (fun m j => max m (off j + len - 1)) (off k)
    [s.laneLock dst lo hi]

/-- How the kinds of a single access bear on its slot (R210, R247): SC pages make it `.sc`. -/
def State.singleOrd (s : State) (f : Fields) (addrs : List Nat) : Nat :=
  if addrs.any fun a => s.onSc s.myPart s.myPasid a then 4 else f.eord

/-- A single access is issued: its `.rel` part waits for the slot's earlier accesses, its `.acq` part holds the slot's next one. -/
def State.issueSingle (s : State) (f : Fields) (o : Op) (locks : List Lock) (ord : Nat) (never : Bool) : State × Flow :=
  let o := if ordRel ord then { o with deps := s.slotOps s.g.tag false, rel := true } else o
  let (s', fl) := s.issueEst f o locks 400 never
  match fl with
  | .seq n => (if ordAcq ord then s'.acquire [o.id] [] else s', .seq n)
  | fl => (s', fl)

/-- SIZE of `gld` and `gst` in bytes (R244). -/
def singleSize (f : Fields) : Nat := 2 ^ (f.c.toNat % 4)

/-- The lane sides of a list of lanes as ranges of the own core's linear view. -/
def State.sideSpans (s : State) (ks : List Nat) (off : Nat → Nat) (len : Nat) : List Span :=
  ks.flatMap fun k => s.laneSpans (s.g.phys k) (off k) len

/-- A per-lane single access: n bytes at the global address, len bytes of scratchpad, read at issue when src is set (R245). -/
def singleBody (opc : Nat) (s : State) (f : Fields) (n len : Nat) (dst src : Bool) : Except Flt (State × Flow) := do
  let ks := s.performing f.h
  let off := s.sideOff f
  s.sideCheck ks off n len
  match ks.find? fun k => s.globalAddr f k % n != 0 with
  | some k => .error ⟨.misaligned, k, 0⟩
  | none =>
    let s := if src then s.settle (s.sideSpans ks off len) else s
    let items := ks.map fun k : Nat =>
      ({ k := k, idx := 0, off := off k, addr := s.globalAddr f k
         data := if src then s.sideData k (off k) len else []
         psn := if src then s.sidePoison k (off k) len else none
         st := .todo } : Item)
    let aval := match Opnd.ofCode f.a.toNat with | .s r => s.sreg s.cyc r | _ => 0
    let o := { s.opBase opc 3 f with items := items, aval := aval }
    .ok (s.issueSingle f o (s.sideLock ks off len dst) (s.singleOrd f (items.map (·.addr))) false)

/-- `gld` (R245). -/
def execGld (f : Fields) (s : State) : Answer :=
  issueF 0xD0 f s fun s f => uniform f.h (fun s => memAccess s fun s =>
    singleBody 0xD0 s f (singleSize f) (singleSize f) true false) s

/-- `gst` (R245). -/
def execGst (f : Fields) (s : State) : Answer :=
  issueF 0xD1 f s fun s f => uniform f.h (fun s => memAccess s fun s =>
    singleBody 0xD1 s f (singleSize f) (singleSize f) false true) s

/-- Bytes of the scratchpad side of `gatom` (R245). -/
def gatomLen (c : Nat) : Nat := aopBytes (gatomAop c) * (if gatomAop c ≥ 14 then 2 else 1)

/-- `gatom` (R245). -/
def execGatom (f : Fields) (s : State) : Answer :=
  issueF 0xD2 f s fun s f => uniform f.h (fun s => memAccess s fun s =>
    let c := f.c.toNat
    singleBody 0xD2 s f (aopBytes (gatomAop c)) (gatomLen c) (!(gatomRed c)) true) s

/-- `watch` (R246). -/
def watchBody (s : State) (f : Fields) : Except Flt (State × Flow) := do
  let land := (s.sreg s.cyc (sIdx f.c)).toNat
  let x := s.linAcc 0 land 8
  if x.mis then .error ⟨.misaligned, 3, 0⟩
  else if x.out || !(s.coh.inside x.off 8) then .error ⟨.scratchBounds, 3, 0⟩
  else
    let a := (s.sreg s.cyc (sIdx f.a)).toNat
    if a % 8 != 0 then .error ⟨.misaligned, 1, 0⟩
    else
      let b := s.sopnd .b64 f.lit f.b
      let item : Item := { k := 0, idx := 0, off := land, addr := a, data := [], st := .todo }
      let o := { s.opBase 0xD3 3 f with
        items := [item], aval := BitVec.ofNat 64 a, bval := BitVec.ofNat 64 b, cval := BitVec.ofNat 64 land }
      .ok (s.issueSingle f o (s.padLock true land 8) (s.singleOrd f [a]) true)

/-- `watch` (R246). -/
def execWatch (f : Fields) (s : State) : Answer :=
  issueF 0xD3 f s fun s f => uniform f.h (fun s => memAccess s fun s => watchBody s f) s

/-! ## The end of a lock wait (R261) -/

/-- The operands of a `gatom` as they stand (R245, R261). -/
def State.readOperands (s : State) (o : Op) : Op :=
  let g := (s.gang? o.cohort o.f2).getD .idle
  let at_ (i : Item) (n : Nat) : Nat := linOf (g.phys i.k) ((s.cohort o.cohort).reloc (i.off + n))
  { o with items := o.items.map fun i => { i with
      data := (List.range (gatomLen o.cfield)).map fun n => (s.pad o.core).read (at_ i n)
      psn := (List.range (gatomLen o.cfield)).find? fun n => s.padPoison o.core (at_ i n) 1 } }

/-- Whether an operation's lock wait is over: no earlier lock meets its own (R261), and where a `gatom` then reads its operands, what its
slot stored there before is in place (R219). -/
def State.lockOver (s : State) (o : Op) : Bool := !o.waited && !(s.lockWaits o.id) && !(o.opc = 0xD2 && s.fxBefore o)

/-- LOCK_WAIT_END (R261): the operation may access its bytes; a `gatom` reads its operands, a `gst` has read its bytes at issue (R245, log 47). -/
def execLockWaitEnd (id : Nat) (s : State) : Answer :=
  match s.op? id with
  | none => .next s
  | some o =>
    if s.lockOver o then .next (s.setOp { (if o.opc = 0xD2 then s.readOperands o else o) with waited := true }) else .next s

end Sys2Proof.Machine
end

