-- ==== Sys2Proof/Machine/Index.lean ====
section
/-! DEFINITION. Tensor records (spec/12 R264, R265), the index engine's `gth`, `sct` and `probe` (spec/13 R294 to R296), the probe pass
(spec/12 R267, R268), and how an item of a single access or of the index engine is sent as a packet (R266, R278). -/
namespace Sys2Proof.Machine

open Sys2Proof

/-! ## Tensor records (R264, R265) -/

/-- A tensor record (R264). -/
structure Tens where
  base : Nat
  extx : Nat
  exty : Nat
  rowstr : Nat
  depstr : Nat
  extd : Nat
  fmt : Nat
  planes : Nat
  zero : Nat
  deriving DecidableEq, Repr

/-- The record of 32 bytes (R264). -/
def Tens.ofBytes (bs : List Byte) : Tens :=
  let n (o l : Nat) : Nat := leNat ((bs.drop o).take l)
  { base := n 0 8, extx := n 8 4, exty := n 12 4, rowstr := n 16 4, depstr := n 20 4, extd := n 24 2, fmt := n 26 1,
    planes := n 27 1 % 16, zero := n 24 8 / 2 ^ 28 }

/-- Bytes of an element (R264). -/
def Tens.eb (t : Tens) : Nat :=
  match t.fmt with
  | 3 | 4 | 14 => 8
  | 5 | 6 | 10 | 11 => 2
  | 7 | 8 | 12 | 13 => 1
  | 16 => 1
  | _ => 4

/-- Bytes of a run of 1,024 plane-nested elements (R80). -/
def Tens.run (t : Tens) : Nat := 64 + 128 * t.planes

/-- Bytes of a row (R264). -/
def Tens.rowLen (t : Tens) : Nat := if t.fmt = 16 then (t.extx + 1023) / 1024 * t.run else t.extx * t.eb

/-- The conditions of R264. -/
def Tens.valid (t : Tens) : Bool :=
  let nested := t.fmt = 16
  let al := if nested then 64 else t.eb
  (t.fmt ≤ 14 || nested) && t.zero = 0 && t.base % al = 0 && t.extx != 0 && (!nested || t.extx % 32 = 0) && t.exty != 0 &&
  (t.exty ≤ 1 || t.rowLen ≤ t.rowstr) && t.rowstr % al = 0 && (t.extd = 0 || t.rowstr * t.exty ≤ 256 * t.depstr) &&
  (if nested then 2 ≤ t.planes && t.planes ≤ 8 else t.planes = 0)

/-- The address of element (x, y, d) for FMT 0 to 14 (R265). -/
def Tens.addr (t : Tens) (x y d : Nat) : Nat := (t.base + 256 * t.depstr * d + t.rowstr * y + t.eb * x) % 2 ^ 64

/-- The address of the run that holds element x of a row, for FMT 16 (R265). -/
def Tens.runAddr (t : Tens) (x y d : Nat) : Nat := (t.base + 256 * t.depstr * d + t.rowstr * y + t.run * (x / 1024)) % 2 ^ 64

/-- Length of the table that a record describes (R294). -/
def Tens.count (t : Tens) : Nat := t.extx * t.exty * (t.extd + 1)

/-- The address of table element i; beyond the table, eb bytes an element (R288, R294, log 14). -/
def Tens.elemAddr (t : Tens) (i : Nat) : Nat :=
  if i < t.count then t.addr (i % t.extx) (i / t.extx % t.exty) (i / (t.extx * t.exty)) else (t.base + t.eb * i) % 2 ^ 64

/-- The two parts of the record at a linear address of the pair. -/
def State.recAccs (s : State) (a : Nat) : List Acc := [s.linAcc 0 a 16, s.linAcc 0 (a + 16) 16]

/-- Before a record is read, the places of the slot's RMWs in flight on it are fixed (R231, R286). -/
def State.settleRec (s : State) (a : Nat) : State := s.settle ((s.recAccs a).map (Acc.span s.coh 16))

/-- A record of 32 bytes read by the issuing slot, with the checks of step 2 of R286; det is its operand. Poison in it fails the
operation as a whole (R255). -/
def State.readRecord (s : State) (a det : Nat) : Except Flt (List Byte) :=
  let bytes := (s.recAccs a).flatMap fun x => s.asSeen.padRead (x.span s.coh 16)
  match s.checkAccs (s.recAccs a) 16 .read false with
  | .error e =>
    if e.cause = .poison then .ok bytes
    else .error (if e.cause = .misaligned || e.cause = .scratchBounds then { e with detail := det } else e)
  | .ok () => .ok bytes

/-- Whether the record at a linear address holds poison. -/
def State.recPoison (s : State) (a : Nat) : Bool :=
  let bad (x : Acc) : Bool := s.slotPoison x.core (x.addr s.coh) 16
  !s.spoison.isEmpty && (bad (s.linAcc 0 a 16) || bad (s.linAcc 0 (a + 16) 16))

/-- An operation whose record is poisoned ends with ENGINE_ERROR, every item failed (R211, R255, log 17). -/
def Op.spoil (o : Op) (bad : Bool) : Op :=
  if bad then { o with poisoned := true, items := o.items.map fun i => { i with st := .failed codePoison i.addr } } else o

/-! ## Packets of an operation (R266, R276 to R278) -/

/-- How the operation uses global memory (R210, R295, R296). -/
def Op.use (o : Op) : Use :=
  match o.opc with
  | 0xD0 | 0xD3 | 0xD5 => { rd := true, wr := false }
  | 0xD1 => { rd := false, wr := true }
  | 0xD2 => { rd := true, wr := true }
  | 0xD6 => { rd := o.esub / 2 != 0, wr := true }
  | _ => { rd := true, wr := o.esub.testBit 1 }

/-- What the packet of an item asks of its home slice (R245, R246, R294). -/
def Op.act (o : Op) (i : Item) : Nat × PAct :=
  match o.opc with
  | 0xD0 => (1, .read (2 ^ (o.cfield % 4)))
  | 0xD1 => (3, .write i.data)
  | 0xD2 =>
    let aop := gatomAop o.cfield
    let n := aopBytes aop
    let first := BitVec.ofNat 64 (leNat (i.data.take n))
    let opd := if aop ≥ 14 then BitVec.ofNat 64 (leNat ((i.data.drop n).take n)) else first
    if gatomRed o.cfield then (7, .rmw aop opd first true) else (5, .rmw aop opd first false)
  | 0xD3 => (8, .watch o.bval)
  | 0xD5 => (1, .read (Tens.ofBytes o.rec1).eb)
  | _ => if o.esub / 2 = 0 then (3, .write i.data) else (7, .red (o.esub / 2) i.data)

/-! ## `gth`, `sct` and `probe` (R294 to R296) -/

/-- ROP of `sct` (R284, R295), and the width it needs; 0 for a store. -/
def ropWidth (rop : Nat) : Nat := if rop = 2 then 8 else 4

/-- The body of the three (R286, R294); the order within step 4: log 46. -/
def indexBody (opc : Nat) (s : State) (f : Fields) : Except Flt (State × Flow) := do
  let ca := (s.sreg s.cyc (sIdx f.c)).toNat
  let s := s.settleRec ca
  let rec1 ← s.readRecord ca 3
  let t := Tens.ofBytes rec1
  let rop := if opc = 0xD6 then f.esub / 2 else 0
  if !t.valid || t.fmt > 14 || (rop != 0 && ropWidth rop != t.eb) then .error ⟨.descInvalid, 3, 0⟩
  else
    let w := s.auxWord f
    auxDesc w
    let ks := s.performing f.h
    let off (k : Nat) : Nat := if opc = 0xD7 then 0 else s.sideOff f k
    if opc != 0xD7 then
      match s.sideCheck ks off t.eb t.eb with
      | .error e => .error { e with detail := 2 }
      | .ok () => .ok ()
    s.auxCheck w
    let s := if opc = 0xD6 then s.settle (s.sideSpans ks off t.eb) else s
    let idx (k : Nat) : Nat := s.vregs s.cyc k f.a.toNat 1
    let items := ks.map fun k : Nat =>
      ({ k := k, idx := idx k, off := off k, addr := t.elemAddr (idx k)
         data := if opc = 0xD6 then s.sideData k (off k) t.eb else []
         psn := if opc = 0xD6 then s.sidePoison k (off k) t.eb else none
         st := if idx k ≥ t.count then .failed codeBounds (t.elemAddr (idx k)) else .todo } : Item)
    let bval := match Opnd.ofCode f.b.toNat with
      | .v _ => 0
      | _ => if opc = 0xD7 then 0 else BitVec.ofNat 64 (ofInt 64 (s.offset f.lit s.cyc 0 f.b))
    let o := { s.opBase opc 2 f with
      items := items, bval := bval, cval := BitVec.ofNat 64 ca, aux := w, rec1 := rec1
      bytes := if opc = 0xD7 then 0 else t.eb * ks.length }
    let locks := (if opc = 0xD7 then [] else s.sideLock ks off t.eb (opc = 0xD5)) ++ s.auxLock w
    .ok (s.issueEst f (o.spoil (s.recPoison ca)) locks (400 + 2 * ks.length) false)

/-- `gth` (R294). -/
def execGth (f : Fields) (s : State) : Answer :=
  issueF 0xD5 f s fun s f => uniform f.h (fun s => memAccess s fun s => indexBody 0xD5 s f) s
/-- `sct` (R294, R295). -/
def execSct (f : Fields) (s : State) : Answer :=
  issueF 0xD6 f s fun s f => uniform f.h (fun s => memAccess s fun s => indexBody 0xD6 s f) s
/-- `probe` (R296). -/
def execProbe (f : Fields) (s : State) : Answer :=
  issueF 0xD7 f s fun s f => uniform f.h (fun s => memAccess s fun s => indexBody 0xD7 s f) s

/-! ## The probe pass (R267, R268) -/

/-- What R268 makes of a failed probe pass: each failing page base is listed with its first item, and no item takes effect. A code of 0
marks an item that failed and is not listed. -/
def probeFail (s : State) (o : Op) : List Item → List Nat → List Item
  | [], _ => []
  | i :: is, seen =>
    if i.st != .todo then i :: probeFail s o is seen
    else match s.reach o.part o.pasid i.addr o.use with
      | .ok _ => { i with st := .failed 0 0 } :: probeFail s o is seen
      | .error c =>
        let b := s.pageBase o.part o.pasid i.addr
        if seen.contains b then { i with st := .failed 0 0 } :: probeFail s o is seen
        else { i with st := .failed c b } :: probeFail s o is (b :: seen)

/-- The pages that a successful probe pass pins: 4 KiB frames of virtual addresses with where they lie (R267). -/
def State.pinsOf (s : State) (o : Op) : List (Nat × Nat) :=
  o.items.foldl (fun ps i =>
    if i.st != .todo || ps.any (fun p => p.1 = i.addr / 4096) then ps
    else match s.reach o.part o.pasid i.addr o.use with
      | .ok pg => ps ++ [(i.addr / 4096, pg.node * 2 ^ 48 + pg.at_ (i.addr / 4096 * 4096))]
      | .error _ => ps) []

/-- PROBE_PASS (R267, R268, R382); none begins while the cohort is stopped (R371). An item of `probe` whose page is reachable is thereby performed (R296). -/
def execProbePass (id : Nat) (s : State) : Answer :=
  match s.op? id with
  | none => .next s
  | some o =>
    if o.eng != 2 || o.probed || !(s.opGo o) || (s.cohort o.cohort).st != .resident then .next s
    else
      let bad := o.items.any fun i => i.st = .todo && match s.reach o.part o.pasid i.addr o.use with | .ok _ => false | .error _ => true
      let o := { o with probed := true }
      let es := s.found o.part o.pasid ((o.items.filter fun i => i.st = .todo).map (·.addr))
      if bad then .next ((s.setOp { o with tfault := true, items := probeFail s o o.items [] }).keep es)
      else
        let o := { o with pins := s.pinsOf o }
        .next ((s.setOp (if o.opc = 0xD7 then
          { o with items := o.items.map fun i => if i.st = .todo then { i with st := .done } else i } else o)).keep es)

end Sys2Proof.Machine
end

