-- ==== Sys2Proof/Machine/Block.lean ====
section
/-! DEFINITION. Plane-nested data in memory: runs (spec/04 R80), canonical A and B blocks (R81, R82), and scratchpad bytes in a
cohort's view (spec/10 R203, spec/18 R377). -/
namespace Sys2Proof.Machine

open Sys2Proof

/-! ## Scratchpad in a cohort's view -/

/-- The physical linear address of a view linear address of a cohort (R377). -/
def Cohort.linear (c : Cohort) (a : Nat) : Nat := linOf (laneOf a) (c.reloc (offOf a))

/-- Bytes of a core from a view linear address on. -/
def State.cohRead (s : State) (c : Cohort) (core a n : Nat) : List Byte :=
  let m := s.pad core
  (List.range n).map fun i => m.read (c.linear (a + i))

/-- Bytes written there. -/
def State.cohWrite (s : State) (c : Cohort) (core a : Nat) (bs : List Byte) : State :=
  s.poke core (bs.zipIdx.map fun p => (c.linear (a + p.2), p.1))

/-- Whether some byte there is poisoned (R211). -/
def State.cohPoison (s : State) (c : Cohort) (core a n : Nat) : Bool :=
  !s.spoison.isEmpty && (List.range n).any fun i => s.padPoison core (c.linear (a + i)) 1

/-! ## Runs (R80) -/

/-- Bit j of a list of bytes. -/
def bitAt (bs : List Byte) (byte bit : Nat) : Nat := ((bs.getD byte 0).toNat >>> bit) % 2

/-- The mantissa of element e whose plane j stands from `at_ j` on, planes 7 down to 8 - k. -/
def mantOf (bs : List Byte) (k : Nat) (at_ : Nat → Nat) (e : Nat) : Nat :=
  (List.range k).foldl (fun m i => m + bitAt bs (at_ (7 - i) + e / 8) (e % 8) * 2 ^ (7 - i)) 0

/-- The scale of block j of a run (R80). -/
def runScale (bs : List Byte) (j : Nat) : Nat := bits (leNat (bs.take 64)) (10 * j) 10
/-- The mantissa of element e of a run stored with k planes (R80). -/
def runMant (bs : List Byte) (k e : Nat) : Nat := mantOf bs k (fun j => 64 + 128 * (7 - j)) e

/-- Plane j of mantissas as bytes, element e in byte e / 8 (R80, R81). -/
def planeBytes (ms : List Nat) (j : Nat) : List Byte :=
  (List.range (ms.length / 8)).map fun b =>
    BitVec.ofNat 8 ((List.range 8).foldl (fun x i => x + (ms.getD (8 * b + i) 0 >>> j) % 2 * 2 ^ i) 0)

/-- The bytes of a run of k planes from its 32 blocks: scale and 32 mantissas each (R80). -/
def runBytes (k : Nat) (blocks : List (Nat × List Nat)) : List Byte :=
  let scales := (blocks.zipIdx).foldl (fun x p => x + p.1.1 % 1024 * 2 ^ (10 * p.2)) 0
  let ms := blocks.flatMap (·.2)
  leBytes 64 scales ++ (List.range k).flatMap fun i => planeBytes ms (7 - i)

/-! ## Canonical blocks (R81, R82) -/

/-- Bytes of a canonical block. -/
def blockLen : Nat := 4352

/-- The scale of row or column i (R81, R82). -/
def blockScale (bs : List Byte) (i : Nat) : Nat := leNat ((bs.drop (2 * i)).take 2) % 1024
/-- The mantissa of element (i, k) of an A block (R81). -/
def aMant (bs : List Byte) (i k : Nat) : Nat := mantOf bs 8 (fun j => 256 + 512 * (7 - j) + 4 * i) k
/-- The mantissa of element (k, c) of a B block (R82). -/
def bMant (bs : List Byte) (k c : Nat) : Nat := (bs.getD (256 + 32 * c + k) 0).toNat

/-- The parts of a row of an A block: offset and bytes, the scale first (R81). -/
def aRowParts (i scale : Nat) (ms : List Nat) : List (Nat × List Byte) :=
  (2 * i, leBytes 2 (scale % 1024)) ::
    (List.range 8).map fun n => (256 + 512 * n + 4 * i, planeBytes ms (7 - n))

/-- The 4,352 bytes of a B block from its columns (R82). -/
def bBlock (cols : List (Nat × List Nat)) : List Byte :=
  (cols.flatMap fun c => leBytes 2 (c.1 % 1024)) ++ cols.flatMap fun c => c.2.map fun m => BitVec.ofNat 8 m

/-- A zero row or column of a block (R78). -/
def zeroRow : Nat × List Nat := (0, List.replicate 32 0)

/-- A canonical A block of a matrix operation: rows 0 to 63 in the leader's scratchpad, 64 to 127 in the follower's (R305). -/
def State.aBlock (s : State) (c : Cohort) (leader a : Nat) : List Byte × List Byte :=
  let other := leader / 2 * 2 + (leader + 1) % 2
  (s.cohRead c leader a blockLen, s.cohRead c other a blockLen)

/-- Scale of row i, and its mantissas, of such a block. -/
def aRow (b : List Byte × List Byte) (i : Nat) : Nat × List Nat :=
  let bs := if i < 64 then b.1 else b.2
  (blockScale bs i, (List.range 32).map fun k => aMant bs i k)

/-- Row i of such a block is written (R305). -/
def State.writeARow (s : State) (c : Cohort) (leader a i : Nat) (row : Nat × List Nat) : State :=
  let core := if i < 64 then leader else leader / 2 * 2 + (leader + 1) % 2
  (aRowParts i row.1 row.2).foldl (fun s p => s.cohWrite c core (a + p.1) p.2) s

end Sys2Proof.Machine
end

