-- ==== Sys2Proof/Machine/Copy.lean ====
section
/-! DEFINITION. The copy engine's `cpy` in its six forms (spec/12 R253, R263, spec/13 R289 to R293). A copy is a list of units in element
order: bytes of the destination that belong together, with what they become. Items are the 4,096-byte blocks of the destination; an
item takes effect in one step (log 8). -/
namespace Sys2Proof.Machine

open Sys2Proof

/-! ## Fields (R289, R290, R293) -/

/-- LT, RND, SAT, CNV of CCTL (R290). -/
def cctlLt (c : Nat) : Nat := c % 16
def cctlRnd (c : Nat) : Nat := bits c 4 3
def cctlSat (c : Nat) : Bool := c.testBit 7
def cctlCnv (c : Nat) : Bool := c.testBit 8

/-- An address word of `.ss` (R293). -/
def ssOfs (w : W64) : Nat := bits w.toNat 0 22
def ssCoh (w : W64) : Nat := bits w.toNat 22 4
def ssRemote (w : W64) : Bool := w.getLsbD 26
def ssZero (w : W64) : Bool := bits w.toNat 27 37 = 0

/-! ## Units -/

/-- Where a unit's bytes go. -/
inductive CDst
  /-- a linear address in the view of a cohort's core -/
  | pad (cohort core a : Nat)
  | virt (va : Nat)
  /-- a B block of a core -/
  | bblk (core n : Nat)
  /-- nowhere: byte n of the range in a cohort outside the cluster (R293) -/
  | absent (n : Nat)
  deriving DecidableEq, Repr

/-- One unit: where it goes, the global bytes that it reads in element order, the global address that names it, and its bytes, or the
status with which they fail where global memory fails none of them; bad: the global address of its first byte that then fails (R288). -/
structure CUnit where
  dst : CDst
  len : Nat
  reads : List (Nat × Nat)
  ga : Nat
  val : State → Except Nat (List Byte)
  bad : State → Nat := fun _ => ga

/-- The destination block of a unit: its item (R253). -/
def CDst.block : CDst → Nat × Nat × Nat
  | .pad c core a => (c, core, a / 4096)
  | .virt va => (0, 0, va / 4096)
  | .bblk core n => (core, n, 0)
  | .absent n => (0, 1, n / 4096)

/-! ## Elements of a record -/

/-- Values gathered; the first status stands. -/
def gather {α : Type} : List (Except Nat α) → Except Nat (List α)
  | [] => .ok []
  | .error c :: _ => .error c
  | .ok x :: xs => (gather xs).map fun ys => x :: ys

/-- Element (x, y, d) of a record as bits (FMT 0 to 14), or as the exact value of a plane-nested element (R84). -/
def Tens.bitsAt (t : Tens) (s : State) (o : Op) (x y d : Nat) : Except Nat Nat :=
  (s.readVirt o.part o.pasid (t.addr x y d) t.eb).map leNat

/-- The bytes of a plane-nested element: two that hold its block's scale, and one of each plane (R80, R265). -/
def Tens.nestedReads (t : Tens) (x y d : Nat) : List (Nat × Nat) :=
  let a := t.runAddr x y d
  (a + 10 * (x % 1024 / 32) / 8, 2) :: (List.range t.planes).map fun i => (a + 64 + 128 * i + x % 1024 / 8, 1)

/-- A plane-nested element: scale and mantissa as stored (R80, R265). -/
def Tens.nestedAt (t : Tens) (s : State) (o : Op) (x y d : Nat) : Except Nat (Nat × Nat) :=
  (gather ((t.nestedReads x y d).map fun r => s.readVirt o.part o.pasid r.1 r.2)).map fun bs =>
    (bits (leNat (bs.headD [])) (10 * (x % 1024 / 32) % 8) 10,
     (bs.tail.zipIdx).foldl (fun m p => m + bitAt p.1 0 (x % 8) * 2 ^ (7 - p.2)) 0)

/-- The bytes of an element of a record. -/
def Tens.elemReads (t : Tens) (x y d : Nat) : List (Nat × Nat) :=
  if t.fmt = 16 then t.nestedReads x y d else [(t.addr x y d, t.eb)]

/-- The exact value of an element of float format or plane-nested (R84). -/
def Tens.valAt (t : Tens) (s : State) (o : Op) (x y d : Nat) : Except Nat FV :=
  if t.fmt = 16 then (t.nestedAt s o x y d).map fun p => blockVal p.1 t.planes p.2
  else (t.bitsAt s o x y d).map fun b => (Ty.ofCode t.fmt).fmt.val b

/-- Element (x, y, d) as an element of type ty (R136, R291). -/
def Tens.convAt (t : Tens) (s : State) (o : Op) (cnv : Bool) (ty : Ty) (x y d n : Nat) : Except Nat Nat :=
  let rm := cctlRnd o.cfield
  let r := rho rm o.z n
  if !cnv then t.bitsAt s o x y d
  else if t.fmt = 16 then (t.valAt s o x y d).map fun v => roundFV ty.fmt rm (cctlSat o.cfield) v r
  else (t.bitsAt s o x y d).map fun b => convElem ty (Ty.ofCode t.fmt) rm (cctlSat o.cfield) b r

/-- All (x, y, d) of an extent in element order, with their number (R74). -/
def elemOrder (px py depth : Nat) : List (Nat × Nat × Nat × Nat) :=
  (List.range depth).flatMap fun d => (List.range py).flatMap fun y => (List.range px).map fun x =>
    (x, y, d, (d * py + y) * px + x)

/-! ## The forms -/

/-- `.gl`: the elements of a plane from a record (R289, R292). -/
def unitsGl (g : Gang) (c : Cohort) (o : Op) : List CUnit :=
  let p := Desc.ofWord o.aval
  let t := Tens.ofBytes o.rec1
  let cnv := cctlCnv o.cfield
  let ty := Ty.ofCode (cctlLt o.cfield)
  (elemOrder p.px p.py p.depth).map fun (x, y, d, n) =>
    let (k, sl) := p.place g x y
    { dst := .pad c.id o.core (linOf (g.phys k) (p.offAt g k d sl)), len := p.wb, reads := t.elemReads x y d
      ga := if t.fmt = 16 then t.runAddr x y d else t.addr x y d
      val := fun s => (t.convAt s o cnv ty x y d n).map (leBytes p.wb) }

/-- The bytes of an element of a scratchpad plane (R157), with the POISON of its words (R211). -/
def planeRaw (g : Gang) (c : Cohort) (core : Nat) (p : Desc) (x y d : Nat) (s : State) : Except Nat Nat :=
  let (k, sl) := p.place g x y
  let a := linOf (g.phys k) (p.offAt g k d sl)
  if s.cohPoison c core a p.wb then .error codePoison else .ok (leNat (s.cohRead c core a p.wb))

/-- The 64-byte parts of a run written whole: 32 blocks of 32 values, those beyond the row as zero blocks (R83, R265). Part 0 holds the
scales of all blocks, each other part one plane of 16 blocks; val and src give an element's value and its global bytes. Every byte of a block
fails with any of its values. -/
def runUnits (t : Tens) (rm : Nat) (z : W64) (y d r : Nat) (val : State → Nat → Except Nat FV) (src : Nat → List (Nat × Nat)) :
    List CUnit :=
  let a := t.runAddr (1024 * r) y d
  let needed (i b : Nat) : Bool := (i = 0 || b / 16 = (i - 1) % 2) && 1024 * r + 32 * b < t.extx
  let blocks (i : Nat) (s : State) : Except Nat (List (Nat × List Nat)) :=
    gather ((List.range 32).map fun b =>
      let x0 := 1024 * r + 32 * b
      if !(needed i b) then .ok zeroRow
      else (gather ((List.range 32).map fun e => val s (x0 + e))).map fun xs =>
        toBlock rm xs ((List.range 32).map fun e => rho rm z ((d * t.exty + y) * t.extx + x0 + e)))
  (List.range (t.run / 64)).map fun i =>
    { dst := .virt ((a + 64 * i) % 2 ^ 64), len := 64, ga := (a + 64 * i) % 2 ^ 64
      reads := ((List.range 32).filter (needed i)).flatMap fun b => (List.range 32).flatMap fun e => src (1024 * r + 32 * b + e)
      val := fun s => (blocks i s).map fun bs => ((runBytes t.planes bs).drop (64 * i)).take 64
      bad := fun s =>
        let fails (b : Nat) : Bool := needed i b && (List.range 32).any fun e => match val s (1024 * r + 32 * b + e) with | .error _ => true | .ok _ => false
        let b := ((List.range 32).find? fails).getD 0
        (a + 64 * i + if i = 0 then 10 * b / 8 else 4 * (b % 16)) % 2 ^ 64 }

/-- The runs of a record in element order (R265). -/
def runsOf (t : Tens) : List (Nat × Nat × Nat) :=
  (List.range (t.extd + 1)).flatMap fun d => (List.range t.exty).flatMap fun y =>
    (List.range ((t.extx + 1023) / 1024)).map fun r => (r, y, d)

/-- `.lg`: a record from the elements of a plane (R289, R292). -/
def unitsLg (g : Gang) (c : Cohort) (o : Op) : List CUnit :=
  let p := Desc.ofWord o.bval
  let t := Tens.ofBytes o.rec1
  let cnv := cctlCnv o.cfield
  let rm := cctlRnd o.cfield
  let ty := Ty.ofCode (cctlLt o.cfield)
  if t.fmt = 16 then
    (runsOf t).flatMap fun (r, y, d) => runUnits t rm o.z y d r (fun s x =>
      (planeRaw g c o.core p x y d s).map fun b => ty.fmt.val b) fun _ => []
  else (elemOrder p.px p.py p.depth).map fun (x, y, d, n) =>
    { dst := .virt (t.addr x y d), len := t.eb, reads := [], ga := t.addr x y d
      val := fun s => (planeRaw g c o.core p x y d s).map fun b =>
        leBytes t.eb (if cnv then convElem (Ty.ofCode t.fmt) ty rm (cctlSat o.cfield) b (rho rm o.z n) else b)
      bad := fun s =>
        let (k, sl) := p.place g x y
        let l := linOf (g.phys k) (p.offAt g k d sl)
        t.addr x y d + if cnv then 0 else ((List.range t.eb).find? fun j => s.cohPoison c o.core (l + j) 1).getD 0 }

/-- A row of a canonical A block from a record of a float format, converted (R291, R292). -/
def gcRow (t : Tens) (o : Op) (q i : Nat) (s : State) : Except Nat (Nat × List Nat) :=
  let rm := cctlRnd o.cfield
  if i ≥ t.exty then .ok zeroRow
  else (gather ((List.range 32).map fun e => t.valAt s o (32 * q + e) i 0)).map fun xs =>
    toBlock rm xs ((List.range 32).map fun e => rho rm o.z ((128 * q + i) * 32 + e))

/-- The global bytes of part n of row i of a canonical A block of a plane-nested record: the block's scale in part 0, plane n - 1 in part n, none
where the plane is not stored (R80, R265, R291). -/
def Tens.rowReads (t : Tens) (q i n : Nat) : List (Nat × Nat) :=
  let a := t.runAddr (32 * q) i 0
  if n = 0 then [(a + 10 * (32 * q % 1024 / 32) / 8, 2)]
  else if n - 1 < t.planes then [(a + 64 + 128 * (n - 1) + 32 * q % 1024 / 8, 4)]
  else []

/-- Those bytes as they are moved: the scale, or a plane of 32 mantissas (R291). -/
def rowPart (q n : Nat) (bs : List Byte) : List Byte :=
  if n = 0 then leBytes 2 (bits (leNat bs) (10 * (32 * q % 1024 / 32) % 8) 10) else leBytes 4 (leNat bs)

/-- `.gc`: canonical A blocks (R291, R292). -/
def unitsGc (c : Cohort) (o : Op) (core : Nat) : List CUnit :=
  let t := Tens.ofBytes o.rec1
  let a := o.aval.toNat % 2 ^ 21
  (List.range (t.extx / 32)).flatMap fun q => (List.range 128).flatMap fun i => (List.range 9).map fun part =>
    let off := ((aRowParts i 0 []).getD part (0, [])).1
    { dst := .pad c.id core (a + blockLen * q + off), len := if part = 0 then 2 else 4
      reads := if i ≥ t.exty then [] else if t.fmt = 16 then t.rowReads q i part
        else (List.range 32).flatMap fun e => t.elemReads (32 * q + e) i 0
      ga := if t.fmt = 16 then t.runAddr (32 * q) i 0 else t.addr (32 * q) i 0
      val := fun s =>
        if t.fmt = 16 && i < t.exty then
          (gather ((t.rowReads q i part).map fun r => s.readVirt o.part o.pasid r.1 r.2)).map fun bs => rowPart q part bs.flatten
        else (gcRow t o q i s).map fun row => ((aRowParts i row.1 row.2).getD part (0, [])).2 }

/-- A column of a canonical B block from a record: 32 rows of one column, converted (R291, R292). -/
def gbCol (t : Tens) (o : Op) (j c : Nat) (s : State) : Except Nat (Nat × List Nat) :=
  let rm := cctlRnd o.cfield
  if c ≥ t.extx then .ok zeroRow
  else (gather ((List.range 32).map fun e => t.valAt s o c (32 * j + e) 0)).map fun xs =>
    toBlock rm xs ((List.range 32).map fun e => rho rm o.z ((128 * j + c) * 32 + e))

/-- `.gb`: canonical B blocks of the B buffer (R289, R291). -/
def unitsGb (o : Op) : List CUnit :=
  let t := Tens.ofBytes o.rec1
  let w := o.aval.toNat
  let core := o.core / 2 * 2 + (o.core % 2 + w / 128 % 2) % 2
  (List.range (t.exty / 32)).map fun j =>
    { dst := .bblk core (w % 128 + j), len := blockLen
      reads := (List.range t.extx).flatMap fun c => (List.range 32).flatMap fun e => t.elemReads c (32 * j + e) 0
      ga := if t.fmt = 16 then t.runAddr 0 (32 * j) 0 else t.addr 0 (32 * j) 0
      val := fun s => (gather ((List.range 128).map fun c => gbCol t o j c s)).map bBlock }

/-- The cohort, core and linear address that an address word of `.ss` names (R293); none outside the cluster. -/
def State.ssPlace (s : State) (o : Op) (w : W64) : Option (Cohort × Nat × Nat) :=
  let c := s.cohort o.cohort
  let a := ssOfs w
  if ssRemote w then
    match s.gang? o.cohort o.f2 with
    | none => none
    | some g =>
      match s.chanCohort c (g.kn.width 3) (ssCoh w) with
      | none => none
      | some d => if ssCoh w < 2 ^ g.kn.width 3 then some (d, coreOf d.pair (a / 2 ^ 21), g.kn.s50 d.cb + a % 2 ^ 21) else none
  else some (c, coreOf c.pair ((o.core + a / 2 ^ 21) % 2), a % 2 ^ 21)

/-- Whether a linear range of one core, which may pass its end, lies in the allocation (R293). -/
def Cohort.linHolds (c : Cohort) (a n : Nat) : Bool := a + n ≤ 2 ^ 21 && c.linInside a n

/-- `.ss`: groups of 16 bytes (R293). No global address names them: an item that fails reports ADDR 0 (log 46). -/
def unitsSs (s0 : State) (o : Op) : List CUnit :=
  let dst := s0.ssPlace o o.aval
  (List.range (o.cval.toNat / 16)).map fun i =>
    { dst := match dst with
        | some (c, core, a) => .pad c.id core (a + 16 * i)
        | none => .absent (16 * i)
      len := 16, reads := [], ga := 0
      val := fun s => match s.ssPlace o o.bval with
        | none => .error codeScratch
        | some (c, core, a) =>
          if !(c.linHolds (a + 16 * i) 16) then .error codeScratch
          else if s.cohPoison c core (a + 16 * i) 16 then .error codePoison
          else .ok (s.cohRead c core (a + 16 * i) 16) }

/-- `.gg`: record to record (R291, R292). -/
def unitsGg (o : Op) : List CUnit :=
  let t := Tens.ofBytes o.rec1
  let u := Tens.ofBytes o.rec2
  let cnv := cctlCnv o.cfield
  let rm := cctlRnd o.cfield
  if t.fmt = 16 then
    (runsOf t).flatMap fun (r, y, d) =>
      if u.fmt = 16 then
        -- planes are kept, cut by R79 or padded with zero planes: a part is the same part of the source, as far as the row goes
        let a := t.runAddr (1024 * r) y d
        let b := u.runAddr (1024 * r) y d
        let nb := min 32 ((t.extx - 1024 * r) / 32)
        (List.range (t.run / 64)).map fun i =>
          let n := if i ≥ u.run / 64 then 0
            else if i = 0 then (10 * nb + 7) / 8 else 4 * (min 16 (nb - 16 * ((i - 1) % 2)))
          { dst := .virt ((a + 64 * i) % 2 ^ 64), len := 64, ga := (a + 64 * i) % 2 ^ 64
            reads := if n = 0 then [] else [((b + 64 * i) % 2 ^ 64, n)]
            val := fun s => (s.readVirt o.part o.pasid ((b + 64 * i) % 2 ^ 64) n).map fun bs =>
              leBytes 64 (if i = 0 then leNat bs % 2 ^ (10 * nb) else leNat bs) }
      else runUnits t rm o.z y d r (fun s x => u.valAt s o x y d) fun x => u.elemReads x y d
  else (elemOrder t.extx t.exty (t.extd + 1)).map fun (x, y, d, n) =>
    { dst := .virt (t.addr x y d), len := t.eb, reads := u.elemReads x y d, ga := t.addr x y d
      val := fun s => (u.convAt s o cnv (Ty.ofCode t.fmt) x y d n).map (leBytes t.eb) }

/-- FORM of a copy (R289). -/
def Op.form (o : Op) : Nat := o.esub / 8

/-- The units of a copy in element order. -/
def State.copyUnits (s : State) (o : Op) : List CUnit :=
  let c := s.cohort o.cohort
  let g := (s.gang? o.cohort o.f2).getD .idle
  match o.form with
  | 0 => unitsGl g c o
  | 1 => unitsGc c o (coreOf c.pair ((o.core + o.aval.toNat / 2 ^ 21) % 2))
  | 2 => unitsLg g c o
  | 3 => unitsGb o
  | 4 => unitsSs s o
  | _ => unitsGg o

/-- The blocks of the units in the order of their first byte: the items (R253). -/
def blocksOf (us : List CUnit) : List (Nat × Nat × Nat) :=
  us.foldl (fun bs u => if bs.contains u.dst.block then bs else bs ++ [u.dst.block]) []

/-- The items of a copy. -/
def copyItems (us : List CUnit) : List Item :=
  ((blocksOf us).zipIdx).map fun (b, i) =>
    { k := i, idx := 0, off := 0, addr := ((us.find? fun u => u.dst.block = b).map (·.ga)).getD 0, data := [], st := .todo }

/-! ## Issue (R286, R289 to R293) -/

/-- Whether a record and a plane descriptor agree in shape (R292). -/
def shapesAgree (t : Tens) (p : Desc) : Bool := t.extx = p.px && t.exty = p.py && t.extd + 1 = p.depth

/-- The conversion between a record and a lane type: RESERVED_FIELD for a pair that `cvt` refuses, DESC_INVALID for widths that differ
(R290, R291); dst says that the record is the destination. Where one side is plane-nested and the other no float type, or SAT stands with no
e4m3 or e5m2 destination, the cause is RESERVED_FIELD with detail 0 too (log 46). -/
def laneConv (c : Nat) (t : Tens) (p : Desc) (dst : Bool) (det : Nat) : Except Flt Unit :=
  let lt := Ty.ofCode (cctlLt c)
  let ft := Ty.ofCode t.fmt
  if !(cctlCnv c) then
    if t.fmt != 16 && t.eb = p.wb then .ok () else .error ⟨.descInvalid, det, 0⟩
  else if t.fmt = 16 then
    if !lt.isFloat || (cctlSat c && (dst || !(lt = .e4m3 || lt = .e5m2))) then .error ⟨.reservedField, 0, 0⟩
    else if p.fits lt then .ok () else .error ⟨.descInvalid, det, 0⟩
  else if !(if dst then cvtAccepts ft lt (cctlRnd c) (cctlSat c) else cvtAccepts lt ft (cctlRnd c) (cctlSat c)) then
    .error ⟨.reservedField, 0, 0⟩
  else if p.fits lt then .ok () else .error ⟨.descInvalid, det, 0⟩

/-- The bytes that a record describes, runs counted whole (R289). -/
def Tens.bytes (t : Tens) : Nat := t.rowLen * t.exty * (t.extd + 1)

/-- The bytes of a plane that `.gl` writes: its passes, slabs and depth planes in each physical lane that holds elements (R289). -/
def planeCount (g : Gang) (p : Desc) : Nat :=
  p.n g * p.wb * (((List.range g.size).filter (p.holds g)).map g.phys).eraseDups.length

/-- The lock over a scratchpad plane (R258). -/
def State.planeLock (s : State) (p : Desc) (dst : Bool) : Lock :=
  s.laneLock dst p.loff (p.loff + 16 * (p.depth - 1) * p.dstr + p.foot s.g - 1)

/-- A scratchpad plane that does not lie in the allocation, in any lane that holds elements (R286). -/
def State.planeInside (s : State) (p : Desc) : Bool := s.coh.inside p.loff (16 * (p.depth - 1) * p.dstr + p.foot s.g)

/-- What a copy needs once its operands are checked: records, locks, byte count, and draws of its destination (R74). -/
structure CopyPlan where
  rec1 : List Byte
  rec2 : List Byte
  locks : List Lock
  bytes : Nat
  draws : Nat

/-- A failed condition raises its fault. -/
def need (ok : Bool) (e : Flt) : Except Flt Unit := if ok then .ok () else .error e

/-- The checks of `.gl` and `.lg` (R286, R291, R292): the plane is in operand pd, the record in operand rd. The RESERVED_FIELD of a pair that
`cvt` refuses, seen only from the record, comes after the record and shape checks and before those of the auxiliary word: R286 gives it no
place (DESIGN CHOICE, log 46). -/
def planLane (s : State) (f : Fields) (w pw : W64) (ra pd rd : Nat) (dst : Bool) : Except Flt CopyPlan := do
  let rec1 ← s.readRecord ra rd
  let t := Tens.ofBytes rec1
  let p := Desc.ofWord pw
  let plane := p.valid s.g && p.res
  -- DESC_INVALID in operand order
  if dst then need t.valid ⟨.descInvalid, rd, 0⟩
  need plane ⟨.descInvalid, pd, 0⟩
  need t.valid ⟨.descInvalid, rd, 0⟩
  need (shapesAgree t p) ⟨.descInvalid, pd, 0⟩
  laneConv f.c.toNat t p dst pd
  auxDesc w
  need (s.planeInside p) ⟨.scratchBounds, pd, 0⟩
  s.auxCheck w
  .ok { rec1 := rec1, rec2 := List.replicate 32 0, locks := [s.planeLock p (!dst)]
        bytes := if dst then t.bytes else planeCount s.g p
        draws := if cctlCnv f.c.toNat then p.px * p.py * p.depth else 0 }

/-- The checks of `.gc` (R286, R291, R292). -/
def planGc (s : State) (f : Fields) (w : W64) (a rb : Nat) : Except Flt CopyPlan := do
  let rec1 ← s.readRecord rb 2
  let t := Tens.ofBytes rec1
  need (t.valid && ((9 ≤ t.fmt && t.fmt ≤ 13) || t.fmt = 16) && t.exty ≤ 128 && t.extx % 32 = 0) ⟨.descInvalid, 2, 0⟩
  auxDesc w
  need (a % 16 = 0) ⟨.misaligned, 1, 0⟩
  let n := blockLen * (t.extx / 32)
  need (a < 2 ^ 22 && s.coh.linInside a n) ⟨.scratchBounds, 1, 0⟩
  s.auxCheck w
  .ok { rec1 := rec1, rec2 := List.replicate 32 0, locks := s.padLock true a n, bytes := n
        draws := if cctlRnd f.c.toNat = 4 then 128 * t.extx else 0 }

/-- The checks of `.gb` (R286, R289, R291, R292). -/
def planGb (s : State) (f : Fields) (w : W64) (a rb : Nat) : Except Flt CopyPlan := do
  let rec1 ← s.readRecord rb 2
  let t := Tens.ofBytes rec1
  let n := t.exty / 32
  need (a < 256 && a % 128 + n ≤ 128) ⟨.descInvalid, 1, 0⟩
  need (t.valid && ((9 ≤ t.fmt && t.fmt ≤ 13) || t.fmt = 16) && t.extx ≤ 128 && t.exty % 32 = 0) ⟨.descInvalid, 2, 0⟩
  auxDesc w
  s.auxCheck w
  let core := coreOf s.coh.pair ((s.g.core + a / 128) % 2)
  .ok { rec1 := rec1, rec2 := List.replicate 32 0
        locks := [s.newLock core true (.blocks (a % 128) n)], bytes := blockLen * n
        draws := if cctlRnd f.c.toNat = 4 then 4096 * n else 0 }

/-- The lock of one side of `.ss`; a side outside every cohort has none (R257, R293). -/
def ssLock (s : State) (o : Op) (w : W64) (dst : Bool) (n : Nat) : List Lock :=
  match s.ssPlace o w with
  | some (c, core, a) => if n = 0 then [] else [s.linLock c core dst a n]
  | none => []

/-- The checks of `.ss` (R286, R293). Ranges that overlap are reported with detail 1, ahead of the other operands; the sides are checked before the
auxiliary word (log 46). -/
def planSs (s : State) (o : Op) (aw bw w : W64) (n : Nat) : Except Flt CopyPlan := do
  let overlap := match s.ssPlace o aw, s.ssPlace o bw with
    | some (c, core, a), some (d, core', b) => n != 0 && c.id = d.id && core = core' && a < b + n && b < a + n
    | _, _ => false
  need (ssZero aw && !overlap) ⟨.descInvalid, 1, 0⟩
  need (ssZero bw) ⟨.descInvalid, 2, 0⟩
  need (n ≤ 2 ^ 21) ⟨.descInvalid, 3, 0⟩
  auxDesc w
  need (ssOfs aw % 16 = 0) ⟨.misaligned, 1, 0⟩
  need (ssOfs bw % 16 = 0) ⟨.misaligned, 2, 0⟩
  need (n % 16 = 0) ⟨.misaligned, 3, 0⟩
  need (ssRemote aw || s.coh.linInside (ssOfs aw) n) ⟨.scratchBounds, 1, 0⟩
  need (ssRemote bw || s.coh.linInside (ssOfs bw) n) ⟨.scratchBounds, 2, 0⟩
  s.auxCheck w
  .ok { rec1 := List.replicate 32 0, rec2 := List.replicate 32 0, bytes := n, draws := 0
        locks := ssLock s o aw true n ++ ssLock s o bw false n }

/-- The checks of `.gg` (R286, R290 to R292). With CNV 0, the DESC_INVALID of unequal FMT or PLANES names operand 1: R290 names none (DESIGN
CHOICE, log 46). -/
def planGg (s : State) (f : Fields) (w : W64) (ra rb : Nat) : Except Flt CopyPlan := do
  let rec1 ← s.readRecord ra 1
  let rec2 ← s.readRecord rb 2
  let t := Tens.ofBytes rec1
  let u := Tens.ofBytes rec2
  let c := f.c.toNat
  need t.valid ⟨.descInvalid, 1, 0⟩
  need u.valid ⟨.descInvalid, 2, 0⟩
  need (t.extx = u.extx && t.exty = u.exty && t.extd = u.extd) ⟨.descInvalid, 1, 0⟩
  if !(cctlCnv c) then need (t.fmt = u.fmt && t.eb = u.eb && t.planes = u.planes) ⟨.descInvalid, 1, 0⟩
  else if t.fmt = 16 || u.fmt = 16 then
    need ((t.fmt = 16 || (Ty.ofCode t.fmt).isFloat) && (u.fmt = 16 || (Ty.ofCode u.fmt).isFloat) &&
      (!(cctlSat c) || t.fmt = 12 || t.fmt = 13)) ⟨.reservedField, 0, 0⟩
  else need (cvtAccepts (Ty.ofCode t.fmt) (Ty.ofCode u.fmt) (cctlRnd c) (cctlSat c)) ⟨.reservedField, 0, 0⟩
  auxDesc w
  s.auxCheck w
  .ok { rec1 := rec1, rec2 := rec2, locks := [], bytes := t.bytes, draws := if cctlCnv c then t.count else 0 }

/-- `cpy` (R289 to R293). -/
def cpyBody (s : State) (f : Fields) : Except Flt (State × Flow) := do
  let aw := s.sreg s.cyc (sIdx f.a)
  let bw := s.sreg s.cyc (sIdx f.b)
  let w := s.auxWord f
  let form := cpyForm f
  let n := if form = 4 then s.sopnd .n64 f.lit f.c else 0
  let s := if form = 4 then s else (s.settleRec aw.toNat).settleRec bw.toNat
  let o := { s.opBase 0xD4 1 f with aval := aw, bval := bw, cval := BitVec.ofNat 64 n, aux := w }
  let plan ← match form with
    | 0 => planLane s f w aw bw.toNat 1 2 false
    | 1 => planGc s f w aw.toNat bw.toNat
    | 2 => planLane s f w bw aw.toNat 2 1 true
    | 3 => planGb s f w aw.toNat bw.toNat
    | 4 => planSs s o aw bw w n
    | _ => planGg s f w aw.toNat bw.toNat
  let o := { o with rec1 := plan.rec1, rec2 := plan.rec2, bytes := plan.bytes }
  let recs := match form with
    | 4 => false
    | 5 => s.recPoison aw.toNat || s.recPoison bw.toNat
    | 2 => s.recPoison aw.toNat
    | _ => s.recPoison bw.toNat
  let o := ({ o with items := copyItems (s.copyUnits o) } : Op).spoil recs
  let (s', fl) := s.issueEst f o (plan.locks ++ s.auxLock w) (400 + (plan.bytes + 63) / 64) false
  let rs := form != 4 && cctlRnd f.c.toNat = 4 && plan.draws != 0
  .ok (if fl.issued && rs then { s' with g := s'.g.modLane 0 fun l => { l with z := zAfter l.z plan.draws } } else s', fl)

/-- `cpy` (R289 to R293). -/
def execCpy (f : Fields) (s : State) : Answer :=
  issueF 0xD4 f s fun s f => uniform f.h (fun s => memAccess s fun s => cpyBody s f) s

end Sys2Proof.Machine
end

