-- ==== Sys2Proof/Machine/Item.lean ====
section
/-! DEFINITION. How an item of an engine operation is performed or sent: the order it keeps with earlier accesses (spec/10 R210, R213, R219,
spec/13 R303), packets of single accesses and of the index engine (spec/12 R266, R276 to R278), and the items of copies (spec/12 R253,
R256, spec/13 R288). -/
namespace Sys2Proof.Machine

open Sys2Proof

/-! ## The bytes of an item and its order -/

/-- Where an item's bytes lie: for the index engine the page pinned at the probe pass (R267), else the translation now. -/
def State.itemPlace (s : State) (o : Op) (i : Item) : Except Nat (Nat × Nat) :=
  if o.eng = 2 then
    match o.pins.find? fun p => p.1 = i.addr / 4096 with
    | some p => .ok (p.2 / 2 ^ 48, p.2 % 2 ^ 48 + i.addr % 4096)
    | none => .error codeTranslation
  else match s.reach o.part o.pasid i.addr o.use with
    | .error c => .error c
    | .ok pg => .ok (pg.node, pg.at_ i.addr)

/-- The global addresses that a unit names: those it reads, and its destination. -/
def CUnit.vas (u : CUnit) : List (Nat × Nat) := u.reads ++ match u.dst with | .virt va => [(va, u.len)] | _ => []

/-- The units of item j of a copy. -/
def State.itemUnits (s : State) (o : Op) (j : Nat) : List CUnit :=
  let us := s.copyUnits o
  match (blocksOf us)[j]? with
  | some b => us.filter fun u => u.dst.block = b
  | none => []

/-- The global bytes of item j of an operation: virtual addresses and lengths. -/
def State.itemVas (s : State) (o : Op) (j : Nat) (i : Item) : List (Nat × Nat) :=
  match o.opc with
  | 0xD4 => (s.itemUnits o j).flatMap CUnit.vas
  | 0xD0 => [(i.addr, 2 ^ (o.cfield % 4))]
  | 0xD1 => [(i.addr, i.data.length)]
  | 0xD2 => [(i.addr, aopBytes (gatomAop o.cfield))]
  | 0xD3 => [(i.addr, 8)]
  | 0xD5 | 0xD6 => [(i.addr, (Tens.ofBytes o.rec1).eb)]
  | _ => []

/-- Where virtual bytes lie: node and local address. -/
def State.lies (s : State) (o : Op) (v : Nat × Nat) : Option (Nat × Nat × Nat) :=
  (s.translate o.part o.pasid v.1).toOption.map fun pg => (pg.node, pg.at_ v.1, v.2)

/-- Whether two ranges of local memory share a byte. -/
def shares (x y : Nat × Nat × Nat) : Bool := x.1 = y.1 && x.2.1 < y.2.1 + y.2.2 && y.2.1 < x.2.1 + x.2.2

/-- Whether an item touches a page whose accesses are ordered (R210). -/
def State.itemSc (s : State) (o : Op) (j : Nat) (i : Item) : Bool := (s.itemVas o j i).any fun v => s.onSc o.part o.pasid v.1

/-- Whether some item of an operation on an SC page is not performed yet. -/
def State.scOpen (s : State) (o : Op) (n : Nat) : Bool :=
  ((o.items.take n).zipIdx).any fun p => (p.1.away || (o.eng = 1 && p.1.st = .applied)) && s.itemSc o p.2 p.1

/-- Whether an operation's item must wait for single accesses of its slot that issued earlier and share a byte with it: until they are sent,
as the network keeps the order of packets of one pair to one slice (R213); a copy, until they are applied (R219). -/
def State.singleBefore (s : State) (o : Op) (j : Nat) (i : Item) : Bool :=
  match s.ops.filter fun p => p.id < o.id && p.eng = 3 && p.cohort = o.cohort && p.f2 = o.f2 && p.slot = o.slot &&
      p.items.any fun x => x.st = .todo || (o.eng = 1 && x.st = .sent) with
  | [] => false
  | ps =>
    let mine := (s.itemVas o j i).filterMap (s.lies o)
    ps.any fun p => (p.items.zipIdx).any fun x => (x.1.st = .todo || (o.eng = 1 && x.1.st = .sent)) &&
      ((s.itemVas p x.2 x.1).filterMap (s.lies p)).any fun y => mine.any (shares y)

/-- Whether an item must wait for earlier accesses: of its slot to the same bytes (R213, R219); and on SC pages for those of its gang that come
before it in program order and in item order (R210, R303). -/
def State.itemWaits (s : State) (o : Op) (j : Nat) (i : Item) : Bool :=
  s.singleBefore o j i ||
  (s.itemSc o j i && (s.scOpen o j || s.ops.any fun p => p.id < o.id && (p.eng = 1 || p.eng = 2 || p.eng = 3) && p.cohort = o.cohort &&
    p.f2 = o.f2 && s.scOpen p p.items.length))

/-! ## Packets (R266, R276 to R278) -/

/-- An item of a single access or of the index engine is sent, with all the items of its sector once none of them waits (R266); a failing one
fails alone. -/
def performPacket (s : State) (o : Op) (j : Nat) (i : Item) : State :=
  if s.itemWaits o j i then s
  else match s.itemPlace o i with
    | .error c => (s.failItems o.id [j] c).keep (if o.eng = 2 then [] else s.found o.part o.pasid [i.addr])
    | .ok (node, la) =>
      match i.psn with
      | some n => s.setOp (o.setItem j fun x => { x with st := .failed codePoison (i.addr + n) })
      | none =>
        let rt := pairRouter (o.core / 2 % 24)
        let router := 48 * (o.core / 48) + rt
        if (s.router router).load portLocal ≥ 4 then s
        else
          let sc := s.itemSc o j i
          let js := (List.range o.items.length).filter fun n => match o.items[n]? with
            | some x => n = j || (!sc && x.st = .todo && x.psn.isNone && x.addr / 64 = i.addr / 64)
            | none => false
          if js.any fun n => match o.items[n]? with | some x => s.itemWaits o n x | none => false then s else
          let elems := js.filterMap fun n => (o.items[n]?).map fun x =>
            ({ item := n, la := la / 64 * 64 + x.addr % 64, act := (o.act x).2, data := [] } : PElem)
          let own := (s.part o.part).node
          let home := (s.part o.part).home la
          let (slack, late) := o.slackNow s.now
          let p : Packet :=
            { kind := if node != own && (o.act i).1 = 7 then 5 else (o.act i).1, dnode := node, ddie := if node = own then home / 16 else 0
              drt := if node = own then sliceRouter (home % 16) else 0, snode := own, sdie := o.core / 48, srt := rt, slack := slack,
              late := late, bg := o.bg, ndata := dataFlits ((elems.map fun e => e.carried.length).sum), op := o.id, elems := elems, at_ := 0 }
          let o' := js.foldl (fun o n => o.setItem n fun x => { x with st := .sent }) o
          ((s.setOp o').enterRouter own router portLocal p).keep (if o.eng = 2 then [] else s.found o.part o.pasid [i.addr])

/-! ## Packets of items that take effect whole (R253, R276 to R278, R288, R297)

An item of a copy reads its lines and then writes them by packets to their home slices, an item of `chsend` sends its message to the consumer's
pair. The packets leave as the router of the pair has a free buffer, and the item takes effect once all are answered (log 8). -/

/-- The first packet of item j that an operation has still to send. -/
def Op.outOf (o : Op) (j : Nat) : Option Packet := o.out.find? fun p => p.elems.any fun e => e.item = j

/-- Whether a packet of an operation may be sent now: the router of the pair has a free buffer (R273); of the hub's own, the hub's port into the die
grants it (R388), and one for another node goes to its fabric port. -/
def State.maySend (s : State) (o : Op) (p : Packet) : Bool :=
  if o.ofHub then p.dnode != p.snode || s.hubGrant p.bridgeIn = some (20 + o.part)
  else (s.router (48 * (o.core / 48) + pairRouter (o.core / 2 % 24))).load portLocal < 4

/-- The first packet of item j is sent, with the slack that is left now (R278). -/
def State.sendNext (s : State) (o : Op) (j : Nat) : State :=
  match o.outOf j with
  | none => s
  | some p =>
    if !(s.maySend o p) then s
    else
      let s' := s.setOp { o with out := o.out.erase p }
      let (slack, late) := o.slackNow s.now
      let p := { p with slack := slack, late := late }
      if !o.ofHub then s'.enterRouter (s.part o.part).node (48 * (o.core / 48) + pairRouter (o.core / 2 % 24)) portLocal p
      else if p.dnode != p.snode then s'.enterFabric (hubSelf o.part) p
      else s'.enterDie (20 + o.part) p

/-- Item j of an operation has packets to send, and waits for their answers; wr: they are those of its writes. -/
def State.startPackets (s : State) (o : Op) (j : Nat) (ps : List Packet) (wr : Bool) : State :=
  s.setOp { o.setItem j (fun i => { i with st := .sent, wr := wr, left := ps.length, bad := [] }) with out := o.out ++ ps }

/-- A packet of an operation for a local address of a node (R276); an own one goes to the home slice, and one of the hub names the bridge by which it
enters the die as its source. -/
def State.itemPacket (s : State) (o : Op) (kind node : Nat) (es : List PElem) : Packet :=
  let own := (s.part o.part).node
  let home := (s.part o.part).home ((es.head?.map (·.la)).getD 0)
  let ddie := if node = own then home / 16 else 0
  let drt := if node = own then sliceRouter (home % 16) else 0
  { kind := kind, dnode := node, ddie := ddie, drt := drt, snode := own, sdie := if o.ofHub then ddie else o.core / 48
    srt := if o.ofHub then bridgeRouter (if drt / 6 ≤ 3 then 0 else 4) else pairRouter (o.core / 2 % 24), slack := 0, late := false
    bg := o.bg, ndata := dataFlits ((es.map fun e => e.carried.length).sum), op := o.id, elems := es, at_ := 0 }

/-! ## Items of copies (R253, R256, R288) -/

/-- The status with which a byte fails in the module, if it does (R256). Another node says for itself whether it refuses, and a silent CXL link or a
line that goes bad shows in the answers to the packets. -/
def State.byteFault (s : State) (o : Op) (u : Use) (va : Nat) : Option Nat :=
  match s.reach o.part o.pasid va u with
  | .error c => some c
  | .ok pg =>
    if pg.node != (s.part o.part).node then none
    else if u.rd && s.linePoison (pg.at_ va) 1 then some codePoison
    else none

/-- The first byte of some ranges that fails: status and address. -/
def State.rangeFault (s : State) (o : Op) (u : Use) (vs : List (Nat × Nat)) : Option (Nat × Nat) :=
  vs.findSome? fun v => (List.range v.2).findSome? fun n => (s.byteFault o u (v.1 + n)).map fun c => (c, v.1 + n)

/-- The status with which a unit fails and the global address of the byte, if it does: SCRATCH first, then what comes first in the order of
R256 of its source and its destination; first names the item for SCRATCH (R288). -/
def CUnit.fault (u : CUnit) (s : State) (o : Op) (first : Nat) : Option (Nat × Nat) :=
  let dst : Option (Nat × Nat) := match u.dst with
    | .absent _ => some (codeScratch, first)
    | .pad c _ a => if (s.cohort c).linHolds a u.len then none else some (codeScratch, first)
    | .bblk _ _ => none
    | .virt va => s.rangeFault o { rd := false, wr := true } [(va, u.len)]
  let src := match s.rangeFault o { rd := true, wr := false } u.reads with
    | some e => some e
    | none => match u.val s with
      | .error c => some (c, if c = codeScratch then first else u.bad s)
      | .ok _ => none
  match src, dst with
  | some a, some b => if b.1 = codeScratch || (a.1 != codeScratch && b.1 < a.1) then some b else some a
  | some a, none => some a
  | none, b => b

/-- The bytes of a unit are written. -/
def CUnit.put (u : CUnit) (s : State) (o : Op) (bs : List Byte) : State :=
  match u.dst with
  | .absent _ => s
  | .pad c core a => s.cohWrite (s.cohort c) core a bs
  | .virt va => match s.writeVirt o.part o.pasid va bs with | .ok s' => s' | .error _ => s
  | .bblk core n =>
    let p := s.pair (core / 2)
    s.setPair (core / 2) { p with
      bbuf := p.bbuf.modify (core % 2) fun m => m.writeN (blockLen * n) bs
      psn := p.psn.filter (· != .block (core % 2) n)
      tags := p.tags.modify (core % 2) fun l => l.set n .plain }

/-- The lines that units cover whole lose their poison (R211). -/
def State.clearLines (s : State) (o : Op) (us : List CUnit) : State :=
  if s.poison.isEmpty then s
  else s.clearWritten (us.flatMap fun u => match u.dst with | .virt va => s.landsAt o.part o.pasid va u.len | _ => [])

/-- A range of virtual bytes cut where a 256-byte line ends. -/
def lineParts (va len : Nat) : List (Nat × Nat) :=
  (List.range ((va % 256 + len + 255) / 256)).map fun k =>
    let lo := max va ((va / 256 + k) * 256)
    (lo, min (va + len) ((va / 256 + k + 1) * 256) - lo)

/-- Two elements of one kind whose bytes follow one another, as one. -/
def PElem.join (a b : PElem) : Option PElem :=
  if b.la = a.la + a.span.2 && b.va = a.va + a.span.2 then
    match a.act, b.act with
    | .read n, .read m => some { a with act := .read (n + m) }
    | .copy x, .copy y => some { a with act := .copy (x ++ y) }
    | _, _ => none
  else none

/-- Elements with neighbours joined. -/
def joinElems (es : List PElem) : List PElem :=
  (es.foldl (fun acc e => match acc with
    | [] => [e]
    | a :: as => match a.join e with | some c => c :: as | none => e :: a :: as) []).reverse

/-- What the units of item j of a copy read, or write, of global memory: the node, and an element for each part of a line. -/
def State.copyElems (s : State) (o : Op) (j : Nat) (us : List CUnit) (wr : Bool) : List (Nat × PElem) :=
  let at_ (va len : Nat) (act : Nat → Nat → PAct) : List (Nat × PElem) := (lineParts va len).filterMap fun v =>
    (s.lies o v).map fun x => (x.1, { item := j, la := x.2.1, act := act (v.1 - va) v.2, data := [], va := v.1 })
  us.flatMap fun u =>
    if wr then match u.dst with
      | .virt va =>
        let bs := match u.val s with | .ok bs => bs | .error _ => []
        at_ va u.len fun d n => .copy ((bs.drop d).take n)
      | _ => []
    else u.reads.flatMap fun r => at_ r.1 r.2 fun _ n => .read n

/-- The packets of those elements, one for each 256-byte line: reads, or copy data (R276). -/
def State.copyPackets (s : State) (o : Op) (es : List (Nat × PElem)) (wr : Bool) : List Packet :=
  let key (x : Nat × PElem) : Nat × Nat := (x.1, x.2.la / 256)
  ((es.map key).eraseDups).map fun k =>
    s.itemPacket o (if wr then 10 else 1) k.1 (joinElems ((es.filter fun x => key x = k).map (·.2)))

/-- The bytes of an item of a copy are written in the module. -/
def copyEffect (s : State) (o : Op) (j : Nat) (us : List CUnit) : State :=
  let s' := us.foldl (fun (t : State) (u : CUnit) => match u.val s with | Except.ok bs => u.put t o bs | Except.error _ => t) s
  ((s'.clearLines o us).triggerAll).setOp (o.setItem j fun i => { i with st := .done })

/-- Status and address of the first byte of a copy's item that fails as the module stands, or that the answers to its packets name, in element order
(R256, R288). -/
def State.copyFault (s : State) (o : Op) (i : Item) (us : List CUnit) : Option (Nat × Nat) :=
  let named (vs : List (Nat × Nat)) : Option (Nat × Nat) := vs.findSome? fun v =>
    (i.bad.find? fun b => v.1 / 256 * 256 ≤ b.1 && b.1 < v.1 + v.2).map fun b => (b.2, max b.1 v.1)
  us.findSome? fun u => match u.fault s o ((us.head?.map (·.ga)).getD 0) with
    | some e => some e
    | none => named u.vas

/-- The writes of an item of a copy are sent, or it takes effect where it has none. -/
def State.copyWrites (s : State) (o : Op) (j : Nat) (us : List CUnit) : State :=
  match s.copyPackets o (s.copyElems o j us true) true with
  | [] => copyEffect s o j us
  | ps => s.startPackets o j ps true

/-- An item of a copy takes effect whole, or fails whole with the status of its first failing byte (log 8). It begins by sending reads of the lines
of its sources; with those answered it sends its data to the lines of its destination (R278); and once that is answered too its bytes are written.
It fails where the module or an answer refuses it: a poisoned line, a silent CXL link or port, another node (R211, R392, R394, R402). -/
def performCopy (s : State) (o : Op) (j : Nat) : State :=
  match o.items[j]? with
  | none => s
  | some i =>
    let us := s.itemUnits o j
    if i.st = .sent then s.sendNext o j
    else if i.st = .todo && s.itemWaits o j i then s
    else if us.isEmpty then s.failItems o.id [j] codeScratch
    else
      let es := s.found o.part o.pasid (((us.flatMap CUnit.vas).map fun v => v.1 / 4096 * 4096).eraseDups)
      let s' : State := match s.copyFault o i us with
        | some (c, a) => s.setOp (o.setItem j fun i => { i with st := .failed c a })
        | none =>
          if i.st = .applied && i.wr then copyEffect s o j us
          else if i.st = .applied then s.copyWrites o j us
          else match s.copyPackets o (s.copyElems o j us false) false with
            | [] => s.copyWrites o j us
            | ps => s.startPackets o j ps false
      ({ s' with draws := s'.draws + 1 } : State).keep es

end Sys2Proof.Machine
end

