-- ==== Sys2Proof/Machine/Complete.lean ====
section
/-! DEFINITION. How engine operations end (spec/12 R253 to R256, R281, R287, spec/13 R287, R288): ITEM_PERFORM and the completion event,
with `eqry` and `ecncl` (R301, R302). Channel messages and matrix operations end by steps of their own. -/
namespace Sys2Proof.Machine

open Sys2Proof

/-! ## The gang of an operation -/

/-- A gang changed wherever it stands. -/
def State.modGang (s : State) (cohort f2 : Nat) (h : Gang → Gang) : State :=
  let pick (g : Gang) : Gang := if g.cohort = cohort && g.f2 = f2 then h g else g
  { s with g := pick s.g, others := s.others.map pick }

/-! ## Fault lists and records (R254, R256) -/

/-- The failed items of an operation, with their numbers in increasing order (R248, R253). -/
def Op.failures (o : Op) : List (Nat × Nat × Nat) :=
  o.items.filterMap fun i => match i.st with
    | .failed c a => some (i.k, c, a)
    | _ => none

/-- FAILED of an operation as it stands (R254); a re-issued one continues its count (R378). -/
def Op.failedCount (o : Op) : Nat := o.failedBefore + o.failures.length

/-- The entries that its fault list still takes: of a failed probe pass one for each page (R256, R268). -/
def Op.entries (o : Op) : List (Nat × Nat × Nat) :=
  (o.failures.filter fun p => p.2.1 != 0).take (auxFlc o.aux - o.listed)

/-- LISTED once they are written (R254). -/
def Op.listedCount (o : Op) : Nat := o.listed + o.entries.length

/-- The entry of a failed item (R256). -/
def entryBytes (p : Nat × Nat × Nat) : List Byte := leBytes 4 p.1 ++ leBytes 4 p.2.1 ++ leBytes 8 p.2.2

/-- STATUS of an operation that ends now (R255). -/
def Op.status (o : Op) : Nat :=
  if o.cancelled then 3 else if o.tfault then 2 else if o.poisoned then 4 else if o.failedCount = 0 then 0 else 1

/-- The completion record (R254). -/
def recordBytes (status : Nat) (late : Bool) (failed items listed : Nat) : List Byte :=
  leBytes 4 (status + if late then 256 else 0) ++ leBytes 4 failed ++ leBytes 4 items ++ leBytes 4 listed

/-- The core that bit 21 of a linear address names for an operation (R203). -/
def Op.coreOfAddr (o : Op) (a : Nat) : Nat := coreOf (o.core / 2) ((o.core + a / 2 ^ 21) % 2)

/-- The entries of the failed items are written to the fault list (R256). -/
def State.writeEntries (s : State) (o : Op) : State :=
  if auxFlc o.aux = 0 then s
  else s.cohWrite (s.cohort o.cohort) (o.coreOfAddr (auxFla o.aux)) (auxFla o.aux % 2 ^ 21 + 16 * (o.listed + 1))
    (o.entries.flatMap entryBytes)

/-- The fault list is written: entries, then the record (R256). -/
def State.writeList (s : State) (o : Op) : State :=
  if auxFlc o.aux = 0 then s
  else (s.writeEntries o).cohWrite (s.cohort o.cohort) (o.coreOfAddr (auxFla o.aux)) (auxFla o.aux % 2 ^ 21)
    (recordBytes o.status o.late o.failedCount o.items.length o.listedCount)

/-- Where the barrier object of an operation stands: core and view address. -/
def Op.barrier (o : Op) : Nat × Nat := (o.coreOfAddr (auxBara o.aux), auxBara o.aux % 2 ^ 21)

/-- Whether an operation subtracts its byte count when it ends (R287). -/
def Op.subtracts (o : Op) : Bool := auxBaren o.aux && !o.cancelled

/-- Whether the barrier object of an operation that subtracts is poisoned: its subtraction then fails, and the operation with it (R211, R255,
log 31). -/
def State.barPoison (s : State) (o : Op) : Bool := o.subtracts && s.cohPoison (s.cohort o.cohort) o.barrier.1 o.barrier.2 16

/-- The byte count of an operation is subtracted from its barrier object, which is tested (R236, R287); it comes after the writes applied and
the effects whose places are fixed. A poisoned object stays as it is. -/
def State.subtractBytes (s : State) (o : Op) : State :=
  if !(o.subtracts) || s.barPoison o then s
  else
    let c := s.cohort o.cohort
    let (core, a) := o.barrier
    let seen := s.fixedFx.foldl (fun (t : State) y => t.setPad y.core (y.over (t.pad y.core))) s
    let b := Barr.ofBytes (seen.cohRead c core a 16)
    let b' := b.expect (2 ^ 32 - o.bytes % 2 ^ 32)
    let s := match s.gang? o.cohort o.f2 with
      | some g => s.eqxNote c g.kn core (c.linear a) false (b'.gen != b.gen)
      | none => s
    s.cohWrite c core a b'.bytes

/-! ## What lands at completion (R245, R246, R294) -/

/-- The bytes that an item leaves in the lane side of `gld`, `gatom` and `gth`. -/
def State.landLane (s : State) (o : Op) (g : Gang) (i : Item) : State :=
  if i.st != .done then s
  else
    let c := s.cohort o.cohort
    let n := match o.opc with
      | 0xD2 => aopBytes (gatomAop o.cfield)
      | _ => i.data.length
    s.cohWrite c o.core (linOf (g.phys i.k) i.off) (i.data.take n)

/-- The results of a single access or of a `gth` reach scratchpad (R245, R246, R294). -/
def State.landItems (s : State) (o : Op) : State :=
  let g := (s.gang? o.cohort o.f2).getD .idle
  match o.opc with
  | 0xD0 | 0xD5 => o.items.foldl (fun s i => s.landLane o g i) s
  | 0xD2 => if gatomRed o.cfield then s else o.items.foldl (fun s i => s.landLane o g i) s
  | 0xD3 => o.items.foldl (fun s i =>
      if i.st = .done && i.data.length = 8 then
        s.cohWrite (s.cohort o.cohort) (o.coreOfAddr o.cval.toNat) (o.cval.toNat % 2 ^ 21) i.data
      else s) s
  | _ => s

/-! ## Completion (R281, R287) -/

/-- The gang's promise table entry of an operation completes, and its LATE register counts a late completion (R250, R281). -/
def Gang.completeEntry (g : Gang) (o : Op) (status failed listed : Nat) : Gang :=
  let e := g.prom.getD o.tag .free
  let g := if e.open_ && e.eng = o.eng && e.time = o.time then
      g.setEntry o.tag { e with st := .completed, status := status, late := o.late, failed := failed, items := o.items.length
                                listed := listed }
    else g
  if o.late then { g with late := min (g.late + 1) 0xFFFFFFFF } else g

/-- An operation leaves the machine: its locks are released and its entry completes (R287). -/
def State.endOp (s : State) (o : Op) (status failed listed : Nat) : State :=
  let s : State := { s with locks := s.locks.filter fun x => x.op != o.id, ops := s.ops.filter fun x => x.id != o.id }
  s.modGang o.cohort o.f2 fun g => g.completeEntry o status failed listed

/-- The whole completion event (R287). -/
def State.completeOp (s : State) (o : Op) : State :=
  let o : Op := { o with poisoned := o.poisoned || s.barPoison o }
  (((s.landItems o).writeList o).subtractBytes o).endOp o o.status o.failedCount o.listedCount

/-- Whether an item has taken effect or failed; a watch once its word has come (R246, R253). -/
def Item.closed (o : Op) (i : Item) : Bool :=
  match i.st with
  | .todo | .sent | .applied => false
  | .done => o.opc != 0xD3 || i.data.length = 8
  | .failed _ _ => true

/-- Whether an operation may complete now (R287, R288, R359); a cancelled one waits for no lock or earlier access any more (R302). -/
def State.opDone (s : State) (o : Op) : Bool :=
  (o.eng ≤ 3 || o.eng = 6) && o.items.all (Item.closed o) && (if o.items.isEmpty then o.ti + 1 ≤ s.now else o.cancelled || s.opGo o) &&
  (o.eng != 2 || o.probed || o.cancelled || o.items.all fun i => i.st != .todo)

/-! ## Items (R253, R288) -/

/-- The consumer cohort of a channel message, its core and slot address (R269). -/
def State.messageSlot (s : State) (o : Op) (i : Item) : Option (Cohort × Chan × Nat × Nat) :=
  match s.gang? o.cohort o.f2 with
  | none => none
  | some g =>
    match g.kn.chans[o.aval.toNat]? with
    | none => none
    | some x =>
      match s.cohorts.find? fun d => d.id = i.off with
      | none => none
      | some d =>
        let a := g.kn.s50 d.cb + x.off + i.idx % x.slots * x.size
        some (d, x, coreOf d.pair (a / 2 ^ 21 % 2), a % 2 ^ 21)

/-- The packets of a message's n bytes from address src to the consumer's pair, 256 bytes each; one without data for a message of none (R276, R278,
R297, log 13). -/
def State.sendPackets (s : State) (o : Op) (j : Nat) (d : Cohort) (slot : Nat) (bs : List Byte) : List Packet :=
  (List.range (max 1 ((bs.length + 255) / 256))).map fun k =>
    let own := (s.part o.part).node
    let e : PElem := { item := j, la := slot + 256 * k, act := .copy ((bs.drop (256 * k)).take 256), data := [] }
    { s.itemPacket o 11 own [e] with ddie := d.pair / 24, drt := pairRouter (d.pair % 24) }

/-- The bytes of a message go to its slot (R297): they are sent as channel data, and written once they have come. Poison in their source, or a slot
that no longer is, fails the item. -/
def performSend (s : State) (o : Op) (j : Nat) (i : Item) : State :=
  let c := s.cohort o.cohort
  let n := o.cval.toNat
  let core := o.coreOfAddr o.bval.toNat
  let a := o.bval.toNat % 2 ^ 21
  if i.st = .sent then s.sendNext o j
  else match s.messageSlot o i with
  | none => s.failItems o.id [j] codeScratch
  | some (d, _, core', b) =>
    if s.cohPoison c core a n then s.failItems o.id [j] codePoison
    else if !(d.linInside b n) then s.failItems o.id [j] codeScratch
    else if i.st = .todo then s.startPackets o j (s.sendPackets o j d b (s.cohRead c core a n)) true
    else (s.cohWrite d core' b (s.cohRead c core a n)).setOp (o.setItem j fun i => { i with st := .done })

/-- The items that Comet has begun: up to the last one that it has performed or sent (R371). -/
def Op.begun (o : Op) : Nat :=
  ((o.items.zipIdx).filter fun p => p.1.st != .todo).foldl (fun m p => max m (p.2 + 1)) 0

/-- Whether item j of a copy may go on: an item begun, or the next one to begin, in increasing order, while its cohort runs (R371). -/
def State.copyRuns (s : State) (o : Op) (j : Nat) : Bool :=
  match o.items[j]? with
  | some i => i.st != .todo || (o.begun = j && (s.cohort o.cohort).st = .resident)
  | none => false

/-- Whether an item may still be worked on: of one that takes effect whole, until it has. -/
def Op.atWork (o : Op) (i : Item) : Bool := i.st = .todo || (o.whole && (i.st = .sent || i.st = .applied))

/-- ITEM_PERFORM (R253, R266, R288): an item takes effect, or its packets are sent; a stopped cohort sends no more but to finish what a copy has
begun (R371). -/
def execItemPerform (id j : Nat) (s : State) : Answer :=
  match s.op? id with
  | none => .next s
  | some o =>
    match o.items[j]? with
    | none => .next s
    | some i =>
      if !(o.atWork i) || !(s.opGo o) then .next s
      else match o.eng with
        | 1 => .next (if s.copyRuns o j then performCopy s o j else s)
        | 2 => .next (if o.probed && !o.tfault && (s.cohort o.cohort).st = .resident then performPacket s o j i else s)
        | 3 => .next (performPacket s o j i)
        | 4 => .next (performSend s o j i)
        | _ => .next s

/-! ## `eqry` and `ecncl` (R301, R302) -/

/-- The operation in flight of an entry of the issuing gang. -/
def State.opOfTag (s : State) (e : PEntry) (tag : Nat) : Option Op :=
  s.ops.find? fun o => o.cohort = s.g.cohort && o.f2 = s.g.f2 && o.tag = tag && o.eng = e.eng && o.time = e.time

/-- The word that `eqry` writes (R301). -/
def State.queryWord (s : State) (w : W64) (half : Nat) : Nat :=
  let e := s.g.entryOf w
  if e.st = .free || !(e.matches_ w) then if half = 0 then 512 else 0
  else
    let (st, late, failed, listed) : Nat × Bool × Nat × Nat :=
      if e.open_ then (0xFF, false, ((s.opOfTag e (bits w.toNat 48 8)).map Op.failedCount).getD e.failed,
        ((s.opOfTag e (bits w.toNat 48 8)).map (·.listed)).getD e.listed)
      else (e.status, e.late, e.failed, e.listed)
    if half = 0 then st + (if late then 256 else 0) + failed * 2 ^ 32 else e.items + listed * 2 ^ 32

/-- `eqry` (R301). -/
def execEqry (f : Fields) (s : State) : Answer :=
  issueF 0xDC f s fun s f => uniform f.h (fun s =>
    .ok (s.addPends (s.sResult 4 f.d (s.queryWord (s.sreg s.cyc (sIdx f.a)) (f.b.toNat - 352))), .seq 1)) s

/-- A list of packets without those of an operation. -/
def dropFrom (id : Nat) (ps : List Packet) : List Packet := ps.filter fun p => p.op != id

/-- The packets of an operation leave the machine. -/
def State.dropPackets (s : State) (id : Nat) : State :=
  { s with
    routers := s.routers.map fun x => (x.1, { x.2 with bufs := x.2.bufs.map (dropFrom id) })
    slices := s.slices.map fun x => (x.1, { x.2 with q := x.2.q.filter (fun y => y.1.op != id), watches := dropFrom id x.2.watches })
    cxl := s.cxl.map fun l => { l with q := l.q.filter (fun e => e.pkt.op != id), sent := l.sent.filter (fun y => y.1.op != id)
                                       rx := dropFrom id l.rx }
    ports := s.ports.map fun p => { p with q := p.q.filter (fun e => e.pkt.leg = .out || e.pkt.op != id), held := p.held.filter (fun e => e.pkt.leg = .out || e.pkt.op != id)
                                           rx := dropFrom id p.rx } }

/-- An operation is cancelled: items in progress finish whole, every other item fails CANCELLED; a watch ends where it stands (R302). -/
def State.cancelOp (s : State) (o : Op) : State :=
  let watch := o.opc = 0xD3
  let cut (i : Item) : Item := match i.st with
    | .todo => { i with st := .failed codeCancelled i.addr }
    | .sent | .applied | .done => if watch then { i with st := .failed codeCancelled i.addr } else i
    | .failed _ _ => i
  let s := if watch then s.dropPackets o.id else s
  s.setOp { o with cancelled := true, items := o.items.map cut }

/-- `ecncl` (R302). -/
def ecnclBody (s : State) (f : Fields) : State × Nat :=
  let w := s.sreg s.cyc (sIdx f.a)
  let e := s.g.entryOf w
  if !(e.open_ && e.matches_ w) then (s, 0)
  else match s.opOfTag e (bits w.toNat 48 8) with
    | none => (s, 0)
    | some o => if o.eng ≤ 3 then (s.cancelOp o, 1) else (s, 2)

/-- `ecncl` (R302). -/
def execEcncl (f : Fields) (s : State) : Answer :=
  issueF 0xDD f s fun s f => uniform f.h (fun s =>
    let (s', v) := ecnclBody s f
    .ok (s'.addPends (s.sResult 8 f.d v), .seq 1)) s

end Sys2Proof.Machine
end

