-- ==== Sys2Proof/Machine/Channel.lean ====
section
/-! DEFINITION. The channel instructions (spec/13 R297 to R300) and the steps by which they go on: CHANNEL_SLOT_CLAIM,
CHANNEL_MESSAGE_TAKE, CHANNEL_SLOT_FREE and CHANNEL_LANDING (spec/12 R269, R270). -/
namespace Sys2Proof.Machine

open Sys2Proof

/-- The channel that operand A names (R284). -/
def State.chanArg (s : State) (f : Fields) : Nat := s.sopnd .n64 f.lit f.a

/-- CHANNEL_INVALID reports the channel number (R364). -/
def chanFault (ch : Nat) : Flt := ⟨.channelInvalid, ch % 2 ^ 32, 0⟩

/-- The declaration of a channel for which the issuing cohort plays a part. -/
def State.chanFor (s : State) (ch : Nat) (part : Chan → Bool) : Except Flt Chan :=
  match s.g.kn.chans[ch]? with
  | some x => if part x then .ok x else .error (chanFault ch)
  | none => .error (chanFault ch)

/-- The counters of channel ch change, in its consumer cohort (R270). -/
def State.setChan (s : State) (d : Cohort) (ch : Nat) (c : ChanCtr) : State := s.setCohort { d with chans := d.chans.set ch c }

/-- One count modulo 2^32 (R270). -/
def next32 (n : Nat) : Nat := (n + 1) % 2 ^ 32

/-- The linear address of the slot of a message, as the issuing core names it (R203, R269, log 18). -/
def State.slotAddr (s : State) (x : Chan) (d : Cohort) (msg : Nat) : Nat :=
  let a := s.g.kn.s50 d.cb + x.off + msg % x.slots * x.size
  (a + s.g.core * 2 ^ 21) % 2 ^ 22

/-! ## `chsend` (R297) -/

/-- The checks of `chsend`, which then blocks (R297). -/
def chsendBody (s : State) (f : Fields) : Except Flt (State × Flow) := do
  let ch := s.chanArg f
  let src := (s.sreg s.cyc (sIdx f.b)).toNat
  let n := s.sopnd .n64 f.lit f.c
  let _ ← s.chanFor ch fun x => s.f3 = x.prod && n ≤ x.size
  if src % 16 != 0 then .error ⟨.misaligned, 2, 0⟩
  else if n % 16 != 0 then .error ⟨.misaligned, 3, 0⟩
  else if src ≥ 2 ^ 22 || !(s.coh.linInside src n) then .error ⟨.scratchBounds, 2, 0⟩
  else .ok (s, .blocked (.chsend f ch src n (s.now + s.g.kn.hang) s.g.issues))

/-- `chsend` (R297): the slot blocks; CHANNEL_SLOT_CLAIM lets it go on, in the same cycle when a slot is free. -/
def execChsend (f : Fields) (s : State) : Answer :=
  issueF 0xD8 f s fun s f => uniform f.h (fun s => memAccess s fun s => chsendBody s f) s

/-- The operation of a `chsend` of n bytes from src and its locks, for message c.sent of channel ch (R297). -/
def State.sendOp (s : State) (f : Fields) (ch src n : Nat) (x : Chan) (d : Cohort) (c : ChanCtr) : Op × List Lock :=
  let a := s.g.kn.s50 d.cb + x.off + c.sent % x.slots * x.size
  let item : Item := { k := 0, idx := c.sent, off := d.id, addr := 0, data := [], st := .todo }
  ({ s.opBase 0xD8 4 f with
      items := [item], bytes := n, aval := BitVec.ofNat 64 ch, bval := BitVec.ofNat 64 src, cval := BitVec.ofNat 64 n },
    s.padLock false src n ++ [s.linLock d (coreOf d.pair (a / 2 ^ 21 % 2)) true (a % 2 ^ 21) x.size])

/-- A slot of a channel is claimed: message SENT, the tag, the locks and the promise (R297, R251). issues: ISSUES before the `chsend` was
counted, which a never-missed time holds. -/
def claimSlot (s : State) (f : Fields) (ch src n issues : Nat) (x : Chan) (d : Cohort) (c : ChanCtr) : State :=
  let (o, locks) := s.sendOp f ch src n x d c
  match ({ s with g := { s.g with issues := issues } } : State).issueEst f o locks (200 + (x.size + 63) / 64) false with
  | (s', .seq _) =>
    let s' := s'.setChan d ch { c with sent := next32 c.sent }
    completeBlocked { s' with g := { s'.g with issues := s.g.issues } } (s.cyc + 1)
  | _ => s

/-- Whether the `chsend` at which the issuing slot is blocked may claim its slot now: the channel is open,
and there are a place, a tag and lock entries (R248, R250, R257, R297). -/
def State.canClaim (s : State) (f : Fields) (ch src n : Nat) : Bool :=
  s.chanOpen ch && match s.channel ch with
  | some (x, d, c) =>
    s.engCount 4 < engLimit 4 && !((s.g.prom.getD s.g.nextTag .free).open_) && s.lockRoom (s.sendOp f ch src n x d c).2
  | none => false

/-- CHANNEL_SLOT_CLAIM (R297, R370): a slot of a channel whose consumer is frozen is not claimed; without a tag, a place or a lock entry
the instruction goes on holding (R248, R257). -/
def execChannelSlotClaim (slot : Nat) (s : State) : Answer :=
  let s := s.atSlot slot
  match s.g.here.block with
  | .chsend f ch src n _ issues =>
    match s.channel ch with
    | some (x, d, c) => if s.chanOpen ch then .next (claimSlot s f ch src n issues x d c) else .next s
    | none => .next s
  | _ => .next s

/-- CHANNEL_LANDING (R270, R297): a message whose bytes have come lands once every earlier one has, and its operation completes. -/
def execChannelLanding (id : Nat) (s : State) : Answer :=
  match s.op? id with
  | none => .next s
  | some o =>
    match o.items with
    | [i] =>
      if o.eng != 4 || !(i.closed o) then .next s
      else match s.messageSlot o i with
        | none => .next (s.completeOp o)
        | some (d, _, _, _) =>
          let ch := o.aval.toNat
          let c := d.chans.getD ch .zero
          if c.landed != i.idx then .next s
          else .next ((s.completeOp o).setChan d ch { c with landed := next32 c.landed })
    | _ => .next s

/-! ## `chrecv`, `chrel` and `chpoll` (R298 to R300) -/

/-- `chrecv` (R298): the slot blocks; CHANNEL_MESSAGE_TAKE lets it go on, in the same cycle when a message is ready. -/
def execChrecv (f : Fields) (s : State) : Answer :=
  issueF 0xD9 f s fun s f => uniform f.h (fun s => do
    let ch := s.chanArg f
    let _ ← s.chanFor ch fun x => s.f3 = x.cons
    .ok (s, .blocked (.chrecv (sIdx f.d) ch (s.now + s.g.kn.hang) s.draws))) s

/-- Whether no slot of the cohort stands blocked in an earlier `chrecv` of the channel (R298). -/
def State.recvFirst (s : State) (ch turn : Nat) : Bool :=
  s.gangs.all fun g => g.cohort != s.g.cohort || [g.s0, g.s1].all fun x => !x.live || match x.block with
    | .chrecv _ c _ t => c != ch || turn ≤ t
    | _ => true

/-- CHANNEL_MESSAGE_TAKE (R298): RECV counts up, and the address of the slot lands four cycles on; the first `chrecv` of several takes the
message. -/
def execChannelMessageTake (slot : Nat) (s : State) : Answer :=
  let s := s.atSlot slot
  match s.g.here.block with
  | .chrecv d ch _ turn =>
    match s.channel ch with
    | some (x, co, c) =>
      if c.ready && s.recvFirst ch turn then
        let s' := s.setChan co ch { c with recv := next32 c.recv }
        .next (completeBlocked (s'.addPends [s.result (s.cyc + 4) (.s d) (s.slotAddr x co c.recv)]) (s.cyc + 1))
      else .next s
    | none => .next s
  | _ => .next s

/-- `chrel` (R299): the slot blocks; CHANNEL_SLOT_FREE lets it go on once its earlier accesses have been performed. -/
def execChrel (f : Fields) (s : State) : Answer :=
  issueF 0xDA f s fun s f => uniform f.h (fun s => do
    let ch := s.chanArg f
    let _ ← s.chanFor ch fun x => s.f3 = x.cons
    match s.channel ch with
    | some (_, _, c) =>
      if c.rel = c.recv then .error (chanFault ch)
      else .ok (s, .blocked (.chrel (sIdx f.d) ch (s.now + s.g.kn.hang)))
    | none => .error (chanFault ch)) s

/-- CHANNEL_SLOT_FREE (R299): REL counts up, and the freed slot's address lands four cycles on. A message that another gang has released
meanwhile leaves none: CHANNEL_INVALID. -/
def execChannelSlotFree (slot : Nat) (s : State) : Answer :=
  let s := s.atSlot slot
  match s.g.here.block with
  | .chrel d ch _ =>
    match s.channel ch with
    | some (x, co, c) =>
      if !(s.fenceClear true) then .next s
      else if c.rel = c.recv then .next (trapBlocked s (chanFault ch))
      else
        let s' := s.setChan co ch { c with rel := next32 c.rel }
        .next (completeBlocked (s'.addPends [s.result (s.cyc + 4) (.s d) (s.slotAddr x co c.rel)]) (s.cyc + 1))
    | none => .next s
  | _ => .next s

/-- The counts that `chpoll` reads; those of a consumer cohort that has ended are a free value (R300, log 4). -/
def State.pollWord (s : State) (ch : Nat) (x : Chan) : Nat :=
  match s.channel ch with
  | some (_, _, c) => sub32 c.landed c.recv + sub32 x.slots (sub32 c.sent c.rel) * 2 ^ 32
  | none => Config.free s.draws 23 % 2 ^ 64

/-- `chpoll` (R300). -/
def execChpoll (f : Fields) (s : State) : Answer :=
  issueF 0xDB f s fun s f => uniform f.h (fun s => do
    let ch := s.chanArg f
    let x ← s.chanFor ch s.onChannel
    .ok (s.addPends (s.sResult 4 f.d (s.pollWord ch x)), .seq 1)) s

end Sys2Proof.Machine
end

