-- ==== Sys2Proof/Machine/Matrix.lean ====
section
/-! DEFINITION. The issue of the matrix instructions (spec/14 R304 to R336): their words, the steps of R313, the queue and the time of
R314. What a queued operation does is in MatrixRun. -/
namespace Sys2Proof.Machine

open Sys2Proof

/-! ## Fields of a matrix operation's word -/

/-- SUB, RND and TYPE of the class V layout (R53), PLN, MREG, MMODE and XSUB of class X (R60). -/
def Op.msub (o : Op) : Nat := bits o.word.toNat 0 3
def Op.mrnd (o : Op) : Nat := bits o.word.toNat 3 3
def Op.mty (o : Op) : Ty := .ofCode (bits o.word.toNat 6 4)
def Op.pln (o : Op) : Nat := bits o.word.toNat 7 3
def Op.mmode (o : Op) : Nat := bits o.word.toNat 2 2
def Op.xsub (o : Op) : Nat := bits o.word.toNat 0 2

/-- The shape word (R317). -/
structure MmaWord where
  m : Nat
  nt : Nat
  kb : Nat
  bf : Nat
  mt : Nat
  acc : Nat
  zero : Nat
  deriving DecidableEq, Repr

def MmaWord.ofNat (x : Nat) : MmaWord :=
  { m := bits x 0 8, nt := bits x 8 3, kb := bits x 11 8, bf := bits x 19 7, mt := bits x 26 8, acc := bits x 34 2
    zero := bits x 36 28 }

/-- Stored B blocks of a tile: K blocks, or pairs of them when B is sparse (R318, R320). -/
def MmaWord.perTile (x : MmaWord) (sparse : Bool) : Nat := if sparse then x.kb / 2 else x.kb

/-- The tiles that the mask does not drop (R318). -/
def MmaWord.tiles (x : MmaWord) (mode : Nat) (mask : W256) : List Nat :=
  (List.range x.nt).filter fun j => mode != 1 || mask.getLsbD (x.mt + j)

/-- The stored blocks of a tile that the mask does not drop (R318, R320). -/
def MmaWord.blocks (x : MmaWord) (sparse : Bool) (mode : Nat) (mask : W256) : List Nat :=
  (List.range (x.perTile sparse)).filter fun b => mode != 2 || mask.getLsbD (x.mt + b / (if sparse then 2 else 4))

/-- The conditions of R317 and R318. -/
def MmaWord.valid (x : MmaWord) (sparse : Bool) (mode : Nat) : Bool :=
  x.zero = 0 && x.m ≤ 128 && x.nt ≤ 4 && x.kb ≤ 128 && (!sparse || x.kb % 2 = 0) && x.bf + x.nt * x.perTile sparse ≤ 128 &&
  (mode != 1 || x.mt + x.nt ≤ 256) && (mode != 2 || (x.kb % 4 = 0 && x.mt + x.kb / 4 ≤ 256))

/-- The scout word (R322). -/
structure ScoutWord where
  m : Nat
  nk : Nat
  kb : Nat
  bf : Nat
  st : Nat
  zero : Nat
  deriving DecidableEq, Repr

def ScoutWord.ofNat (x : Nat) : ScoutWord :=
  { m := bits x 0 8, nk := bits x 8 9, kb := bits x 17 8, bf := bits x 25 7, st := bits x 32 8, zero := bits x 40 24 }

def ScoutWord.valid (x : ScoutWord) : Bool :=
  x.zero = 0 && x.m ≤ 128 && x.nk ≤ 256 && 1 ≤ x.kb && x.kb ≤ 128 && x.bf + x.nk * x.kb ≤ 128 && x.st + x.nk ≤ 256

/-- The parameter word of `hzn` (R324). -/
structure HznWord where
  t : Nat
  f : Nat
  w : Nat
  cl : Nat
  mr : Nat
  zero : Nat
  deriving DecidableEq, Repr

def HznWord.ofNat (x : Nat) : HznWord :=
  { t := bits x 0 9, f := bits x 9 9, w := bits x 18 9, cl := bits x 27 9, mr := bits x 36 7, zero := bits x 43 21 }

def HznWord.valid (x : HznWord) : Bool := x.zero = 0 && x.t ≤ 256 && x.f ≤ 256 && x.w ≤ 256 && x.cl ≤ 256

/-- The bput word (R332). -/
structure BputWord where
  first : Nat
  count : Nat
  core : Nat
  pk : Nat
  pat : Nat
  zero : Nat
  deriving DecidableEq, Repr

def BputWord.ofNat (x : Nat) : BputWord :=
  { first := bits x 0 7, count := bits x 7 8, core := bits x 15 1, pk := bits x 16 3, pat := bits x 19 2, zero := bits x 21 43 }

def BputWord.valid (x : BputWord) (form : Nat) : Bool :=
  x.zero = 0 && x.count ≤ 128 && x.first + x.count ≤ 128 && (x.pk = 0 || form = 1) && x.pat != 3 && (x.pat = 0 || form = 2)

/-- Source bytes of a block, and the tag it takes (R333). -/
def BputWord.len (x : BputWord) (form : Nat) : Nat := if form = 1 then 256 + 512 * (x.pk + 1) else blockLen
def BputWord.tag (x : BputWord) (form : Nat) : BTag :=
  if form = 0 then .plain else if form = 1 then .planes (x.pk + 1) else .sparse x.pat

/-- The select word of `mrd` and `mwr` (R335). -/
structure SelWord where
  row : Nat
  nrow : Nat
  acc : Nat
  mreg : Nat
  zero : Nat
  deriving DecidableEq, Repr

def SelWord.ofNat (x : Nat) : SelWord :=
  { row := bits x 0 7, nrow := bits x 7 8, acc := bits x 15 2, mreg := bits x 17 3, zero := bits x 20 44 }

def SelWord.valid (x : SelWord) (obj : Nat) : Bool :=
  x.zero = 0 && x.nrow ≤ 128 && (if obj = 3 then x.nrow = 0 else x.row + x.nrow ≤ 128)

/-- Bytes of a row of an object (R336), and all bytes moved. -/
def selRow : Nat → Nat
  | 0 => 5120
  | 1 => 16
  | _ => 512
def SelWord.bytes (x : SelWord) (obj : Nat) : Nat := if obj = 3 then 32 else selRow obj * x.nrow

/-- Metadata bytes of a stored block (R321). -/
def metaLen : Nat → Nat
  | 0 => 1024
  | 1 => 512
  | _ => 1536

/-! ## Issue (R304 to R306, R313 to R315) -/

/-- The pair of the issuing gang. -/
def State.myPair (s : State) : Pair := s.pair s.coh.pair
/-- The core of the issuing gang: the leader (R305). -/
def State.leader (s : State) : Nat := coreOf s.coh.pair s.g.core

/-- A mask register as it stands at issue (R307). -/
def State.maskReg (s : State) (n : Nat) : W256 := BitVec.ofNat 256 (s.g.seen s.draws s.cyc 0 (.m n))

/-- Step 4 of R313 over operands of n bytes: detail, address and n. -/
def State.matAddrs (s : State) (xs : List (Nat × Nat × Nat)) : Except Flt Unit :=
  match xs.find? fun x => x.2.1 % 16 != 0 with
  | some x => .error ⟨.misaligned, x.1, 0⟩
  | none =>
    match xs.find? fun x => x.2.2 != 0 && (x.2.1 ≥ 2 ^ 22 || !(s.coh.linInside x.2.1 x.2.2)) with
    | some x => .error ⟨.scratchBounds, x.1, 0⟩
    | none => .ok ()

/-- The locks of a range of canonical A blocks, in both cores (R305, R318). -/
def State.aLocks (s : State) (dst : Bool) (a n : Nat) : List Lock :=
  if n = 0 then []
  else [s.linLock s.coh s.leader dst a n, s.linLock s.coh (coreOf s.coh.pair (1 - s.g.core % 2)) dst a n]

/-- The lock of B blocks of a core (R259). -/
def State.bLock (s : State) (core first n : Nat) (dst : Bool) : List Lock :=
  if n = 0 then [] else [s.newLock core dst (.blocks first n)]

/-- Bytes that a matrix operation names: core, physical linear address, length, and whether it writes them. -/
abbrev MatSpan := Nat × Nat × Nat × Bool

/-- The bytes of a linear range of the pair (R313). -/
def State.linSpan (s : State) (wr : Bool) (a n : Nat) : List MatSpan :=
  if n = 0 then [] else [(s.coreFor a, s.coh.linear (a % 2 ^ 21), n, wr)]

/-- The bytes of canonical A blocks, in both cores (R305). -/
def State.aSpan (s : State) (wr : Bool) (a n : Nat) : List MatSpan := s.linSpan wr a n ++ s.linSpan wr (a + 2 ^ 21) n

/-- Whether a lock covers one of the bytes and forbids the access (R260, R313): both are made of 16-byte groups. -/
def Lock.forbids (y : Lock) (x : MatSpan) : Bool :=
  y.core = x.1 && (y.dst || x.2.2.2) && match y.range with
    | .lanes ls lo hi =>
      let first := x.2.1 / 16
      let last := (x.2.1 + x.2.2.1 - 1) / 16
      ls.any fun l => l ≤ last && max (lo / 16) ((first + 255 - l) / 256) ≤ min (hi / 16) ((last - l) / 256)
    | .blocks _ _ => false

/-- Step 5 of R313: RANGE_BUSY for the earliest registered lock in force that an access meets: of xs and of the blocks or the plane of ls a
lock of an operation that is not a matrix operation; of a plane that is read, rd, any engine's destination (R175). -/
def State.matBusy (s : State) (xs : List MatSpan) (ls : List Lock) (rd : List Span := []) : Except Flt Unit :=
  let owner (y : Lock) : Option Op := s.ops.find? fun o => o.id = y.op
  let met (y : Lock) : Bool := y.since ≤ s.cyc && (
    ((owner y).all (·.eng != 5) && (xs.any y.forbids || ls.any (·.conflicts y))) ||
    (y.dst && rd.any fun p => y.covers p.1 (laneOf p.2.1) (offOf p.2.1) p.2.2))
  match s.locks.find? met with
  | none => .ok ()
  | some y => .error ⟨.rangeBusy, ((owner y).map fun o => o.eng * 256 + o.tag).getD 0, 0⟩

/-- The core cycles that the operations in the queue still need (R314). -/
def State.queueLeft (s : State) : Nat :=
  s.myPair.matq.foldl (fun n id => match s.op? id with
    | some o => n + match o.started with | some t => o.dur - (s.cyc - t) | none => o.dur
    | none => n) 0

/-- The promised time of R314. -/
def State.matTime (s : State) (dur : Nat) : Nat := s.now + 1 + (5 * (s.queueLeft + dur + 1) + 3) / 4

/-- An operation enters the queue (R306, R313 steps 7 and 8); it meets no lock of another matrix operation. -/
def State.matIssue (s : State) (f : Fields) (o : Op) (locks : List Lock) (dur : Nat) : State × Flow :=
  match s.issueOp f.d { o with dur := dur, bytes := s.queueLeft + dur } locks (s.matTime dur) false with
  | (s', .seq n) =>
    let p := s'.pair s.coh.pair
    let s' := s'.setPair s.coh.pair { p with matq := p.matq ++ [o.id] }
    ({ s' with ops := s'.ops.map fun x => if x.id = o.id then { x with waited := true } else x }, .seq n)
  | x => x

/-- The generator of lane 0 after a conversion's draws under `.rs` (R74). -/
def State.z0Draws (s : State) (rm n : Nat) (fl : Flow) : State :=
  match fl with
  | .seq _ => if rm = 4 then { s with g := s.g.modLane 0 fun l => { l with z := zAfter l.z n } } else s
  | _ => s

/-- The body of a matrix instruction in a cohort that holds its pair's matrix unit (R304). For one that does not hold it, DETAIL is 0: no operand
is at fault (DESIGN CHOICE, log 30). -/
def holding (s : State) (f : Fields) (body : State → Fields → Except Flt (State × Flow)) : Except Flt (State × Flow) :=
  if s.myPair.holder = some s.g.cohort then body s f else .error ⟨.accInvalid, 0, 0⟩

/-- Steps 1 and 2 of R313: ACC_INVALID for a cohort that does not hold its pair's matrix state (R304). also: the mask register or the plane
that the instruction's word names. -/
def issueMWith (op : Nat) (f : Fields) (s : State) (also : State → Fields → Also)
    (body : State → Fields → Except Flt (State × Flow)) : Answer :=
  issueWith op f s (fun s f => if s.acts f.h then also s f else .none_) fun s f => uniform f.h (fun s => memAccess s fun s => holding s f body) s

/-- The issue of a matrix instruction that names none. -/
def issueM (op : Nat) (f : Fields) (s : State) (body : State → Fields → Except Flt (State × Flow)) : Answer :=
  issueMWith op f s (fun _ _ => .none_) body

/-- A mask register that the word in operand B names is a source of it (R37). -/
def maskAlso (named : Bool) (mreg : Nat) : Also := { Also.none_ with srcs := if named then [(2, .m mreg)] else [] }

/-- A fault unless a condition holds. -/
def ask (ok : Bool) (c : Cause) (det : Nat) : Except Flt Unit := if ok then .ok () else .error ⟨c, det, 0⟩

/-- Whether a linear address names the follower, which canonical A blocks may not (R305). -/
def farAddr (a : Nat) : Bool := a.testBit 21

/-- The tags that an operation issued now will find: those of the buffer after every `bput` ahead of it (R307, R309). -/
def State.tagsAhead (s : State) (core : Nat) : List BTag :=
  s.myPair.matq.foldl (fun ts id => match s.op? id with
    | some o =>
      let w := BputWord.ofNat o.bval.toNat
      if o.opc = 0xE8 && (o.core + w.core) % 2 = core then
        (List.range w.count).foldl (fun ts j => ts.set (w.first + j) (w.tag (o.msub % 4))) ts
      else ts
    | none => ts) (s.myPair.tags.getD core [])

/-- Whether `mma` and `scout` may use a block of this tag (R309). -/
def BTag.dense : BTag → Bool
  | .sparse _ => false
  | _ => true

/-- The word operand B, and an address in A (R312). -/
def State.wordB (s : State) (f : Fields) : Nat := s.sopnd .b64 f.lit f.b
def State.addrA (s : State) (f : Fields) : Nat := (s.sreg s.cyc (sIdx f.a)).toNat

/-- `mma` and `mmasp` at issue (R317 to R320). NT above 4 also makes ACC + n greater than 4: it raises DESC_INVALID whatever ACC is (DESIGN
CHOICE, log 38). -/
def mmaBody (opc : Nat) (s : State) (f : Fields) : Except Flt (State × Flow) := do
  let sparse := opc = 0xE1
  let a := s.addrA f
  let w := s.wordB f
  let x := MmaWord.ofNat w
  let c := if sparse then (s.sreg s.cyc (sIdx f.c)).toNat else 0
  let mask := if f.mmode = 0 then 0 else s.maskReg f.mreg
  ask (x.nt > 4 || x.acc + x.nt ≤ 4) .accInvalid 2
  ask (!(farAddr a)) .descInvalid 1
  ask (x.valid sparse f.mmode) .descInvalid 2
  let tiles := x.tiles f.mmode mask
  let blocks := x.blocks sparse f.mmode mask
  let tags := s.tagsAhead s.g.core
  let fits (t : BTag) : Bool := if sparse then t = .sparse f.xsub else t.dense
  ask ((List.range (x.nt * x.perTile sparse)).all fun b => fits (tags.getD (x.bf + b) .plain)) .descInvalid 2
  let noop := x.m = 0 || x.nt = 0
  let nb := x.nt * x.perTile sparse
  let na := if noop then 0 else blockLen * x.kb
  let nm := if noop || !sparse then 0 else metaLen f.xsub * nb
  s.matAddrs ([(1, a, na)] ++ if sparse then [(3, c, nm)] else [])
  let locks := if noop then [] else s.aLocks false a na ++ s.bLock s.leader x.bf nb false ++ s.padLock false c nm
  s.matBusy (if noop then [] else s.aSpan false a na ++ s.linSpan false c nm)
    (if noop then [] else s.bLock s.leader x.bf nb false)
  if noop then .ok (s.issueDone f 5)
  else
    let o := { s.opBase opc 5 f with
      aval := BitVec.ofNat 64 a, bval := BitVec.ofNat 64 w, cval := BitVec.ofNat 64 c, mask := mask }
    .ok (s.matIssue f o locks (24 + (f.pln + 1) * (tiles.length * blocks.length)))

/-- `mma` (R318). -/
def execMma (f : Fields) (s : State) : Answer := issueM 0xE0 f s (mmaBody 0xE0)
/-- `mmasp` (R320). -/
def execMmasp (f : Fields) (s : State) : Answer := issueM 0xE1 f s (mmaBody 0xE1)

/-- `scout` (R322, R323). -/
def scoutBody (s : State) (f : Fields) : Except Flt (State × Flow) := do
  let a := s.addrA f
  let w := s.wordB f
  let x := ScoutWord.ofNat w
  ask (!(farAddr a)) .descInvalid 1
  ask x.valid .descInvalid 2
  let tags := s.tagsAhead s.g.core
  ask ((List.range (x.nk * x.kb)).all fun b => (tags.getD (x.bf + b) .plain).dense) .descInvalid 2
  let noop := x.m = 0 || x.nk = 0
  let na := if noop then 0 else blockLen * x.kb
  s.matAddrs [(1, a, na)]
  let locks := if noop then [] else s.aLocks false a na ++ s.bLock s.leader x.bf (x.nk * x.kb) false
  s.matBusy (s.aSpan false a na) (if noop then [] else s.bLock s.leader x.bf (x.nk * x.kb) false)
  if noop then .ok (s.issueDone f 5)
  else
    let o := { s.opBase 0xE2 5 f with
      aval := BitVec.ofNat 64 a, bval := BitVec.ofNat 64 w, cval := BitVec.ofNat 64 (s.sopnd .f32 f.lit f.c) }
    .ok (s.matIssue f o locks (24 + (f.pln + 1) * x.nk * x.kb))

/-- `scout` (R323). -/
def execScout (f : Fields) (s : State) : Answer := issueM 0xE2 f s scoutBody

/-- `hzn` (R324, R325). -/
def hznBody (s : State) (f : Fields) : Except Flt (State × Flow) := do
  let w := s.sopnd .b64 f.lit f.a
  let x := HznWord.ofNat w
  ask x.valid .descInvalid 1
  let o := { s.opBase 0xE3 5 f with aval := BitVec.ofNat 64 w, bval := BitVec.ofNat 64 (s.sopnd .f32 f.lit f.b) }
  .ok (s.matIssue f o [] (24 + x.t))

/-- `hzn` (R325). -/
def execHzn (f : Fields) (s : State) : Answer := issueM 0xE3 f s hznBody

/-- Whether a descriptor and grid fit `drain.pl` (R328). -/
def Desc.drains (d : Desc) (g : Gang) (t : Ty) : Bool :=
  d.valid g && d.lpx = 7 && d.lpy = 7 && d.fx = 1 && d.fy = 1 && d.res && d.ld = 0 && d.fits t && g.gx = 16 && g.gy = 16

/-- `drain` (R327, R328). -/
def drainBody (s : State) (f : Fields) : Except Flt (State × Flow) := do
  let w := s.wordB f
  let masked := f.sub.testBit 1
  let mreg := bits w 2 3
  let aw := s.sreg s.cyc (sIdx f.a)
  let a := aw.toNat
  let d := Desc.ofWord aw
  let plane := f.sub % 2 = 0
  ask (if plane then d.drains s.g f.ty else !(farAddr a)) .descInvalid 1
  ask (bits w 13 51 = 0) .descInvalid 2
  if plane then ask (s.planeInside d) .scratchBounds 1 else s.matAddrs [(1, a, 4 * blockLen)]
  let locks := if plane then [s.planeLock d true] else s.aLocks true a (4 * blockLen)
  if plane then s.matBusy [] locks else s.matBusy (s.aSpan true a (4 * blockLen)) []
  let o := { s.opBase 0xE4 5 f with
    aval := aw, bval := BitVec.ofNat 64 w, cval := BitVec.ofNat 64 (s.sopnd .f32 f.lit f.c)
    mask := if masked then s.maskReg mreg else 0 }
  let (s', fl) := s.matIssue f o locks 152
  .ok (s'.z0Draws f.rnd 16384 fl, fl)

/-- `drain` (R328). -/
def execDrain (f : Fields) (s : State) : Answer :=
  issueMWith 0xE4 f s (fun s f => maskAlso (f.sub.testBit 1) (bits (s.wordB f) 2 3)) drainBody

/-- The tiles of an `azero` set (R329). -/
def azeroSet (a : Nat) : List Nat := (List.range 4).filter fun t => (a - 352).testBit t

/-- `azero` (R329). -/
def azeroBody (s : State) (f : Fields) : Except Flt (State × Flow) :=
  let tiles := azeroSet f.a.toNat
  if tiles.isEmpty then .ok (s.issueDone f 5)
  else .ok (s.matIssue f { s.opBase 0xE5 5 f with aval := BitVec.ofNat 64 f.a.toNat } [] (24 + 16 * tiles.length))

/-- `azero` (R329). -/
def execAzero (f : Fields) (s : State) : Answer := issueM 0xE5 f s azeroBody

/-- Whether some word of a scratchpad plane is poisoned (R316). -/
def State.planePoison (s : State) (d : Desc) : Bool :=
  !s.spoison.isEmpty && (d.ranges s.g (List.range s.g.size)).any fun r =>
    (laneChunks r.2.2 r.2.1 r.2.2).any fun q => s.slotPoison s.leader (linOf (s.g.phys r.1) (s.coh.reloc q.1)) q.2

/-- The bytes of a scratchpad plane of the issuing gang (R175). -/
def State.planeSpans (s : State) (d : Desc) : List Span :=
  (d.ranges s.g (List.range s.g.size)).flatMap fun r => s.laneSpans (s.g.phys r.1) r.2.1 r.2.2

/-- The registers of a valid source plane, and the plane unit while it is read (R330). -/
def State.qntAlso (s : State) (f : Fields) : Also :=
  let d := Desc.ofWord (s.sreg s.cyc (sIdx f.b))
  if d.valid s.g then
    { Also.none_ with
      srcs := if s.g.pend.isEmpty then [] else (d.tgts s.g (List.range s.g.size)).map fun t => (2, t)
      units := [(.plane, max 1 (d.n s.g))] }
  else .none_

/-- `qnt` (R330): the plane is read at issue. -/
def qntBody (s : State) (f : Fields) : Except Flt (State × Flow) := do
  let a := s.addrA f
  let d := Desc.ofWord (s.sreg s.cyc (sIdx f.b))
  ask (!(farAddr a)) .descInvalid 1
  ask (d.valid s.g && d.wid = 0 && d.ld = 0 && 5 ≤ d.lpx && d.lpx ≤ 9 && d.lpy ≤ 7) .descInvalid 2
  let nb := d.px / 32
  s.matAddrs [(1, a, blockLen * nb)]
  ask (!d.res || s.planeInside d) .scratchBounds 2
  let locks := s.aLocks true a (blockLen * nb)
  s.matBusy (s.aSpan true a (blockLen * nb)) [] (s.planeSpans d)
  let s := s.planeSettle [(2, d)]
  let v := s.asSeen
  let src := (elemOrder d.px d.py 1).flatMap fun (x, y, _, _) => leBytes 4 (v.planeElem d 0 x y)
  let o := { s.opBase 0xE6 5 f with
    aval := BitVec.ofNat 64 a, bval := s.sreg s.cyc (sIdx f.b), src := src, poisoned := d.res && s.planePoison d }
  let (s', fl) := s.matIssue f o locks (24 + 8 * nb)
  .ok (s'.z0Draws f.rnd (4096 * nb) fl, fl)

/-- `qnt` (R330). -/
def execQnt (f : Fields) (s : State) : Answer := issueMWith 0xE6 f s State.qntAlso qntBody

/-- `trq` (R331). -/
def trqBody (s : State) (f : Fields) : Except Flt (State × Flow) := do
  let a := s.addrA f
  let b := (s.sreg s.cyc (sIdx f.b)).toNat
  let n := 4 * blockLen
  ask (!(farAddr a) && !(a < b + n && b < a + n)) .descInvalid 1
  ask (!(farAddr b)) .descInvalid 2
  s.matAddrs [(1, a, n), (2, b, n)]
  let locks := s.aLocks true a n ++ s.aLocks false b n
  s.matBusy (s.aSpan true a n ++ s.aSpan false b n) []
  let o := { s.opBase 0xE7 5 f with aval := BitVec.ofNat 64 a, bval := BitVec.ofNat 64 b }
  let (s', fl) := s.matIssue f o locks 280
  .ok (s'.z0Draws f.rnd 16384 fl, fl)

/-- `trq` (R331). -/
def execTrq (f : Fields) (s : State) : Answer := issueM 0xE7 f s trqBody

/-- Core cycles of a block of `bput` (R314). -/
def BputWord.cycles (x : BputWord) (form : Nat) : Nat := if form = 1 then 1 + 2 * (x.pk + 1) else 17

/-- `bput` (R332, R333). -/
def bputBody (s : State) (f : Fields) : Except Flt (State × Flow) := do
  let a := s.addrA f
  let w := s.wordB f
  let x := BputWord.ofNat w
  let form := f.sub % 4
  ask (x.valid form) .descInvalid 2
  let n := x.len form * x.count
  s.matAddrs [(1, a, n)]
  let blocks := s.bLock (coreOf s.coh.pair ((s.g.core + x.core) % 2)) x.first x.count true
  let locks := s.padLock false a n ++ blocks
  s.matBusy (s.linSpan false a n) blocks
  if x.count = 0 then .ok (s.issueDone f 5)
  else
    let o := { s.opBase 0xE8 5 f with aval := BitVec.ofNat 64 a, bval := BitVec.ofNat 64 w }
    .ok (s.matIssue f o locks (24 + x.cycles form * x.count))

/-- `bput` (R333). -/
def execBput (f : Fields) (s : State) : Answer := issueM 0xE8 f s bputBody

/-- What `mop` writes (R334). -/
def State.mopVal (s : State) (f : Fields) : W256 :=
  let b := s.maskReg (f.b.toNat % 8)
  let c := s.maskReg (f.c.toNat % 8)
  match f.sub with
  | 0 => b &&& c
  | 1 => b ||| c
  | 2 => b ^^^ c
  | 3 => b &&& ~~~c
  | 4 => ~~~b
  | 5 =>
    let lo := min 256 (s.sopnd .n64 f.lit f.b)
    let hi := min 256 (s.sopnd .n64 f.lit f.c)
    BitVec.ofNat 256 (if lo < hi then 2 ^ hi - 2 ^ lo else 0)
  | _ => b

/-- `mop` (R334): its promise is completed at issue, and mA lands two cycles on. -/
def mopBody (s : State) (f : Fields) : Except Flt (State × Flow) :=
  match s.issueDone f 5 with
  | (s', .seq n) => .ok (s'.addPends [s.result (s.cyc + 2) (.m (f.a.toNat % 8)) (s.mopVal f).toNat], .seq n)
  | x => .ok x

/-- `mop` (R334): it accesses no memory and orders none (R426). -/
def execMop (f : Fields) (s : State) : Answer := issueF 0xE9 f s fun s f => uniform f.h (fun s => holding s f mopBody) s

/-- `mrd` and `mwr` (R335, R336). -/
def selBody (opc : Nat) (s : State) (f : Fields) : Except Flt (State × Flow) := do
  let a := s.addrA f
  let w := s.wordB f
  let x := SelWord.ofNat w
  let obj := f.sub % 4
  let rd := opc = 0xEA
  ask (x.valid obj) .descInvalid 2
  let n := x.bytes obj
  s.matAddrs [(1, a, n)]
  let locks := s.padLock rd a n
  s.matBusy (s.linSpan rd a n) []
  if n = 0 then .ok (s.issueDone f 5)
  else
    let o := { s.opBase opc 5 f with
      aval := BitVec.ofNat 64 a, bval := BitVec.ofNat 64 w, mask := if rd && obj = 3 then s.maskReg x.mreg else 0 }
    .ok (s.matIssue f o locks (24 + (n + 255) / 256))

/-- `mrd` (R336). -/
def execMrd (f : Fields) (s : State) : Answer :=
  issueMWith 0xEA f s (fun s f => maskAlso (f.sub % 4 = 3) (bits (s.wordB f) 17 3)) (selBody 0xEA)
/-- `mwr` (R336). -/
def execMwr (f : Fields) (s : State) : Answer := issueM 0xEB f s (selBody 0xEB)

end Sys2Proof.Machine
end

