-- ==== Sys2Proof/Machine/MatrixRun.lean ====
section
/-! DEFINITION. What the operations of the matrix queue do (spec/14 R306 to R311, R318 to R336, spec/04 R77 to R87), and the steps
MATRIX_OP_START and MATRIX_OP_COMPLETE. An operation's reads and writes come about together at its completion: nothing that it reads
can change after its start, by the queue (R307) and by its locks (R260). -/
namespace Sys2Proof.Machine

open Sys2Proof

/-! ## Pair state (R309 to R311) -/

/-- Element (i, c) of a tile: X, and its NaN flag (R85, R310). -/
def Pair.accX (p : Pair) (t i c : Nat) : Nat := leNat ((p.acc.getD t []).readN (40 * (128 * i + c)) 40)
def Pair.accNan (p : Pair) (t i c : Nat) : Bool := ((p.nan.getD t []).read (16 * i + c / 8)).toNat.testBit (c % 8)

/-- A row of a tile takes values (R85). -/
def Pair.setAccRow (p : Pair) (t i : Nat) (xs : List Nat) : Pair :=
  { p with acc := p.acc.modify t fun m => m.writeN (5120 * i) (xs.flatMap (leBytes 40)) }
/-- The NaN flags of a row (R85). -/
def Pair.setNanRow (p : Pair) (t i : Nat) (bs : List Bool) : Pair :=
  let w := (bs.zipIdx).foldl (fun n b => n + if b.1 then 2 ^ b.2 else 0) 0
  { p with nan := p.nan.modify t fun m => m.writeN (16 * i) (leBytes 16 w) }

/-- A scout buffer entry (R311). -/
def Pair.score (p : Pair) (i t : Nat) : Nat := leNat (p.sct.readN (512 * i + 2 * t) 2)

/-- The stored bytes of a B block of a core. -/
def Pair.bBytes (p : Pair) (core n : Nat) : List Byte := (p.bbuf.getD core []).readN (blockLen * n) blockLen
/-- Its tag. -/
def Pair.bTag (p : Pair) (core n : Nat) : BTag := (p.tags.getD core []).getD n .plain

/-! ## Operands (R79, R81, R82, R309, R321) -/

/-- A row of A or column of B: its scale and 32 signed mantissas. -/
abbrev MRow := Nat × List Int

/-- A row seen through p planes (R79). -/
def seenRow (p : Nat) (r : Nat × List Nat) : MRow := (r.1, r.2.map fun m => truncMant p (toInt true 8 m))

/-- Column c of a B block with tag plain or planes, as expanded (R82, R309, R333). -/
def denseCol (bs : List Byte) (t : BTag) (c : Nat) : Nat × List Nat :=
  (blockScale bs c, (List.range 32).map fun k => match t with
    | .planes n => mantOf bs n (fun j => 256 + 512 * (7 - j) + 4 * c) k
    | _ => bMant bs k c)

/-- The slot that supplies logical position k of a sparse column, by its metadata: the highest-numbered one that names it (R321). -/
def sparseSlot (pat md k : Nat) : Option Nat :=
  match pat with
  | 0 =>
    let g := k / 4
    ([1, 0].find? fun h => bits md (4 * g + 2 * h) 2 = k % 4).map fun h => 2 * g + h
  | 1 => if bits md (2 * (k / 4)) 2 = k % 4 then some (k / 4) else none
  | _ =>
    let g := k / 8
    ([3, 2, 1, 0].find? fun h => bits md (12 * g + 3 * h) 3 = k % 8).map fun h => 4 * g + h

/-- Column c of logical block half of a sparse block; md is the column's metadata (R320, R321). -/
def sparseCol (bs : List Byte) (pat md half c : Nat) : Nat × List Nat :=
  (blockScale bs c, (List.range 32).map fun k => match sparseSlot pat md (32 * half + k) with
    | some q => bMant bs q c
    | none => 0)

/-- The term of one K block for a row and a column (R86). -/
def rowTerm (a b : MRow) : Option Int := accTerm a.1 b.1 (((a.2.zip b.2).map fun p => p.1 * p.2).sum)

/-- The sum of the terms of K blocks; none when a NaN block takes part. -/
def sumTerms : List (MRow × MRow) → Option Int
  | [] => some 0
  | (a, b) :: ps => match rowTerm a b, sumTerms ps with
    | some x, some y => some (x + y)
    | _, _ => none

/-- The sum of the terms without those of NaN blocks, which leave X (R86). -/
def sumFinite (ps : List (MRow × MRow)) : Int := (ps.map fun p => (rowTerm p.1 p.2).getD 0).sum

/-! ## `mma` and `mmasp` (R318 to R321) -/

/-- The rows of A that an operation reads: row i of each K block. -/
def State.mmaRows (s : State) (o : Op) (m kb : Nat) : List (List MRow) :=
  let c := s.cohort o.cohort
  (List.range kb).map fun b =>
    let blk := s.aBlock c o.core (o.aval.toNat % 2 ^ 21 + blockLen * b)
    (List.range m).map fun i => seenRow (o.pln + 1) (aRow blk i)

/-- Metadata of column c of the m-th stored block (R320, R321). -/
def State.metaCol (s : State) (o : Op) (m c : Nat) : Nat :=
  let n := metaLen o.xsub
  let a := o.cval.toNat + n * m + n / 128 * c
  leNat (s.cohRead (s.cohort o.cohort) (o.coreOfAddr a) (a % 2 ^ 21) (n / 128))

/-- The columns of B for tile j, as pairs of K block and columns (R318, R320). -/
def State.mmaCols (s : State) (o : Op) (x : MmaWord) (j : Nat) (blocks : List Nat) : List (Nat × List MRow) :=
  let p := s.pair (o.core / 2)
  let core := o.core % 2
  if o.opc = 0xE1 then
    blocks.flatMap fun b => [0, 1].map fun h =>
      let m := j * x.perTile true + b
      let bs := p.bBytes core (x.bf + m)
      (2 * b + h, (List.range 128).map fun c => seenRow 8 (sparseCol bs o.xsub (s.metaCol o m c) h c))
  else
    blocks.map fun b =>
      let n := x.bf + j * x.perTile false + b
      (b, (List.range 128).map fun c => seenRow 8 (denseCol (p.bBytes core n) (p.bTag core n) c))

/-- One tile of an `mma` or `mmasp` (R318): rows below m take the terms, after CLR. -/
def mmaTile (p : Pair) (t m : Nat) (clr poison : Bool) (rows : List (List MRow)) (cols : List (Nat × List MRow)) : Pair :=
  (List.range m).foldl (fun p i =>
    let terms (c : Nat) : List (MRow × MRow) := cols.map fun bc => ((rows.getD bc.1 []).getD i (0, []), bc.2.getD c (0, []))
    let xs := (List.range 128).map fun c =>
      ofInt 320 ((if clr then 0 else (p.accX t i c : Int)) + sumFinite (terms c))
    let ns := (List.range 128).map fun c =>
      (!clr && p.accNan t i c) || poison || (sumTerms (terms c)).isNone
    (p.setAccRow t i xs).setNanRow t i ns) p

/-- The rows of A of an operation that hold poison in the scale or in one of the planes that it reads (R316, R318). -/
def State.aPoison (s : State) (o : Op) (a m planes : Nat) (blocks : List Nat) : Bool :=
  !s.spoison.isEmpty && blocks.any fun b => (List.range m).any fun i =>
    let core := if i < 64 then o.core else o.core / 2 * 2 + (o.core + 1) % 2
    ((2 * i, 2) :: (List.range planes).map fun n => (256 + 512 * n + 4 * i, 4)).any fun p =>
      s.cohPoison (s.cohort o.cohort) core (a + blockLen * b + p.1) p.2

/-- Parts of the pair's matrix memory that an operation reads (R316). -/
def MmaWord.stored (x : MmaWord) (sparse : Bool) (tiles blocks : List Nat) : List Nat :=
  tiles.flatMap fun j => blocks.map fun b => j * x.perTile sparse + b

/-- Whether the memory that an operation reads holds poison: of scratchpad the bytes, of matrix memory the rows and blocks (R316). -/
def State.matPoison (s : State) (o : Op) : Bool :=
  let p := s.pair (o.core / 2)
  if s.spoison.isEmpty && p.psn.isEmpty then o.poisoned
  else
    let c := s.cohort o.cohort
    let one (a n : Nat) : Bool := s.cohPoison c (o.coreOfAddr a) (a % 2 ^ 21) n
    let block (core n : Nat) : Bool := p.psn.contains (.block core n)
    let acc (t : Nat) (rows : List Nat) : Bool := rows.any fun i => p.psn.contains (.acc t i)
    let a := o.aval.toNat % 2 ^ 21
    let sel := SelWord.ofNat o.bval.toNat
    let rows := (List.range sel.nrow).map (sel.row + ·)
    o.poisoned || match o.opc with
      | 0xE0 | 0xE1 =>
        let sparse := o.opc = 0xE1
        let x := MmaWord.ofNat o.bval.toNat
        let tiles := x.tiles o.mmode o.mask
        let blocks := x.blocks sparse o.mmode o.mask
        let used := x.stored sparse tiles blocks
        let ablocks := if tiles.isEmpty then [] else if sparse then blocks.flatMap fun b => [2 * b, 2 * b + 1] else blocks
        s.aPoison o a x.m (o.pln + 1) ablocks || used.any (fun b => block (o.core % 2) (x.bf + b)) ||
        (sparse && used.any fun b => one (o.cval.toNat + metaLen o.xsub * b) (metaLen o.xsub)) ||
        ((!blocks.isEmpty && (sparse || o.xsub % 2 = 0)) && tiles.any fun j => acc (x.acc + j) (List.range x.m))
      | 0xE2 =>
        let x := ScoutWord.ofNat o.bval.toNat
        s.aPoison o a x.m (o.pln + 1) (List.range x.kb) || (List.range (x.nk * x.kb)).any fun b => block (o.core % 2) (x.bf + b)
      | 0xE3 =>
        let x := HznWord.ofNat o.aval.toNat
        min x.t x.cl != 0 && (List.range (x.mr + 1)).any fun i => p.psn.contains (.score i)
      | 0xE4 =>
        let w := o.bval.toNat
        !(o.msub.testBit 1 && !(o.mask.getLsbD (bits w 5 8))) && acc (w % 4) (List.range 128)
      | 0xE7 => s.aPoison o (o.bval.toNat % 2 ^ 21) 128 8 (List.range 4)
      | 0xE8 =>
        let b := BputWord.ofNat o.bval.toNat
        one o.aval.toNat (b.len (o.msub % 4) * b.count)
      | 0xEA => match o.msub % 4 with
        | 0 | 1 => acc sel.acc rows
        | 2 => rows.any fun i => p.psn.contains (.score i)
        | _ => false
      | 0xEB => one o.aval.toNat (sel.bytes (o.msub % 4))
      | _ => false

/-- Parts of a pair's matrix memory are written whole, with poisoned data or not (R211, R316). -/
def Pair.mark (p : Pair) (parts : List MatPart) (bad : Bool) : Pair :=
  if p.psn.isEmpty && !bad then p
  else
    let rest := p.psn.filter fun x => !(parts.contains x)
    { p with psn := if bad then rest ++ parts else rest }

/-- The effect of `mma` and `mmasp`; r is the state whose scratchpad they read. One that adds no term and clears nothing changes nothing (R318). -/
def runMma (r s : State) (o : Op) : State :=
  let x := MmaWord.ofNat o.bval.toNat
  let sparse := o.opc = 0xE1
  let rows := r.mmaRows o x.m x.kb
  let blocks := x.blocks sparse o.mmode o.mask
  let clr := !sparse && o.xsub % 2 = 1
  let bad := r.matPoison o
  let n := o.core / 2
  if blocks.isEmpty && !clr then s
  else s.setPair n ((x.tiles o.mmode o.mask).foldl (fun p j =>
    (mmaTile p (x.acc + j) x.m clr bad rows (r.mmaCols o x j blocks)).mark ((List.range x.m).map (.acc (x.acc + j))) false) (s.pair n))

/-! ## `scout` and `hzn` (R323 to R326) -/

/-- The greatest of the values of a row; none when one of them is NaN. -/
def maxTerm : List (Option Int) → Option Int
  | [] => none
  | [x] => x
  | x :: xs => match x, maxTerm xs with
    | some a, some b => some (max a b)
    | _, _ => none

/-- The score of a row against a key tile (R323): an exact product of 0 gives +0 (R70). -/
def scoreOf (sigma : Nat) (v : Option Int) : Nat :=
  match v with
  | none => Ty.bf16.fmt.nan
  | some x => roundFV Ty.bf16.fmt 0 false (FV.mul (Ty.f32.fmt.val sigma) (FV.ofInt x (-144) false)).plusZero 0

/-- The effect of `scout` (R323); poisoned data leaves poisoned rows of scores (log 31). -/
def runScout (r s : State) (o : Op) : State :=
  let x := ScoutWord.ofNat o.bval.toNat
  let k := o.pln + 1
  let n := o.core / 2
  let p := s.pair n
  let rows := r.mmaRows o x.m x.kb
  let score (u : Nat) : List Nat :=
    let cols := (List.range x.kb).map fun b =>
      let q := x.bf + u * x.kb + b
      (List.range 128).map fun c => seenRow k (denseCol (p.bBytes (o.core % 2) q) (p.bTag (o.core % 2) q) c)
    (List.range x.m).map fun i =>
      scoreOf o.cval.toNat (maxTerm ((List.range 128).map fun c =>
        sumTerms ((rows.zip cols).map fun rc => (rc.1.getD i (0, []), rc.2.getD c (0, [])))))
  let sct := (List.range x.nk).foldl (fun m u => ((score u).zipIdx).foldl (fun m v =>
    m.writeN (512 * v.2 + 2 * (x.st + u)) (leBytes 2 v.1)) m) p.sct
  let bad := r.matPoison o
  s.setPair n (({ p with sct := sct } : Pair).mark (if bad then (List.range x.m).map .score else []) bad)

/-- maximumNumber over scores; NaN when there is no number (R325). -/
def maxNumber (xs : List FV) : FV :=
  xs.foldl (fun m x => if x.isNan then m else if m.isNan then x else if m.lt x then x else m) .nan

/-- The mask that `hzn` computes (R325). -/
def hznMask (p : Pair) (x : HznWord) (tau : FV) : Nat :=
  let l := min x.t x.cl
  let v (i t : Nat) : FV := Ty.bf16.fmt.val (p.score i t)
  let rows := (List.range (x.mr + 1)).map fun i => (i, maxNumber ((List.range l).map (v i)))
  let near (t : Nat) : Bool := rows.any fun r =>
    let d := FV.add 0 (v r.1 t) r.2.neg
    !d.isNan && !tau.isNan && !(d.lt tau.neg)
  maskOf ((List.range l).filter fun t => t < x.f || x.t ≤ t + x.w || near t)

/-- Number of ones. -/
def onesOf (m : Nat) : Nat := ((List.range 256).filter fun t => m.testBit t).length

/-- The effect of `hzn` (R325, R326): mC and the register after D are written. -/
def runHzn (s : State) (o : Op) : State :=
  let m := hznMask (s.pair (o.core / 2)) (.ofNat o.aval.toNat) (Ty.f32.fmt.val o.bval.toNat)
  let d := bits o.word.toNat 37 9 - 256
  s.modGang o.cohort o.f2 fun g => (g.put (.m (o.cfield % 8)) m).put (.s (d + 1)) (onesOf m)

/-! ## `drain` and `azero` (R327 to R329) -/

/-- The value of an element that is drained: the tile's, or the fill, whose zero is exact (R70, R328). -/
def drainVal (p : Pair) (o : Op) (i c : Nat) : FV :=
  let w := o.bval.toNat
  if o.msub.testBit 1 && !(o.mask.getLsbD (bits w 5 8)) then (Ty.f32.fmt.val o.cval.toNat).plusZero
  else accVal (p.accNan (w % 4) i c) (p.accX (w % 4) i c)

/-- The effect of `drain` (R328). -/
def runDrain (s : State) (o : Op) : State :=
  let c := s.cohort o.cohort
  let p := s.pair (o.core / 2)
  let rm := o.mrnd
  if o.msub % 2 = 0 then
    match s.gang? o.cohort o.f2 with
    | none => s
    | some g =>
      let d := Desc.ofWord o.aval
      (elemOrder 128 128 1).foldl (fun s (x, y, _, n) =>
        let (k, sl) := d.place g x y
        s.cohWrite c o.core (linOf (g.phys k) (d.offAt g k 0 sl))
          (leBytes d.wb (roundFV o.mty.fmt rm (o.mty = .e4m3) (drainVal p o y x) (rho rm o.z n)))) s
  else
    (List.range 4).foldl (fun s q => (List.range 128).foldl (fun s i =>
      s.writeARow c o.core (o.aval.toNat % 2 ^ 21 + blockLen * q) i
        (toBlock rm ((List.range 32).map fun e => drainVal p o i (32 * q + e))
          ((List.range 32).map fun e => rho rm o.z ((128 * q + i) * 32 + e)))) s) s

/-- The effect of `azero` (R329). -/
def runAzero (s : State) (o : Op) : State :=
  let n := o.core / 2
  s.setPair n ((azeroSet o.aval.toNat).foldl (fun p t =>
    ({ p with acc := p.acc.set t [], nan := p.nan.set t [] } : Pair).mark ((List.range 128).map (.acc t)) false) (s.pair n))

/-! ## `qnt`, `trq` and `bput` (R330 to R333) -/

/-- Scratchpad words are poisoned (R316). -/
def State.spoil (s : State) (core : Nat) (as : List Nat) : State :=
  { s with spoison := s.spoison ++ ((as.map fun a => (core, a / 4 * 4)).eraseDups.filter fun p => !(s.spoison.contains p)) }

/-- The words of canonical A blocks that an operation wrote from poisoned data are poisoned in turn (R316). -/
def State.spoilBlocks (s : State) (c : Cohort) (leader a blocks : Nat) : State :=
  [(leader, List.range 64), (leader / 2 * 2 + (leader + 1) % 2, (List.range 64).map (64 + ·))].foldl (fun s h =>
    s.spoil h.1 ((List.range blocks).flatMap fun q => h.2.flatMap fun i =>
      (aRowParts i 0 []).map fun p => c.linear (a + blockLen * q + p.1))) s

/-- The effect of `qnt` (R330). -/
def runQnt (s : State) (o : Op) : State :=
  let c := s.cohort o.cohort
  let d := Desc.ofWord o.bval
  let rm := o.mrnd
  let a := o.aval.toNat % 2 ^ 21
  let v (x y : Nat) : FV := Ty.f32.fmt.val (leNat ((o.src.drop (4 * (y * d.px + x))).take 4))
  (List.range (d.px / 32)).foldl (fun s q => (List.range 128).foldl (fun s i =>
    s.writeARow c o.core (a + blockLen * q) i
      (if i < d.py then
        toBlock rm ((List.range 32).map fun e => v (32 * q + e) i)
          ((List.range 32).map fun e => rho rm o.z ((128 * q + i) * 32 + e))
      else zeroRow)) s) s

/-- The effect of `trq` (R331). -/
def runTrq (r s : State) (o : Op) : State :=
  let c := s.cohort o.cohort
  let rm := o.mrnd
  let src := (List.range 4).map fun q =>
    let blk := r.aBlock c o.core (o.bval.toNat % 2 ^ 21 + blockLen * q)
    (List.range 128).map fun i => aRow blk i
  let v (i k : Nat) : FV :=
    let r := (src.getD (k / 32) []).getD i (0, [])
    blockVal r.1 8 (r.2.getD (k % 32) 0)
  (List.range 4).foldl (fun s q => (List.range 128).foldl (fun s r =>
    s.writeARow c o.core (o.aval.toNat % 2 ^ 21 + blockLen * q) r
      (toBlock rm ((List.range 32).map fun e => v (32 * q + e) r)
        ((List.range 32).map fun e => rho rm o.z ((128 * q + r) * 32 + e)))) s) s

/-- The 4,352 bytes that a block takes from the bytes of its source: reserved scale bits and the planes that it lacks are zero (R82, R333). -/
def putBlock (bs : List Byte) : List Byte :=
  (List.range 128).flatMap (fun c => leBytes 2 (blockScale bs c)) ++ bs.drop 256 ++ List.replicate (blockLen - bs.length) 0

/-- The effect of `bput` (R333); poisoned data leaves poisoned blocks (log 31). -/
def runBput (r s : State) (o : Op) : State :=
  let c := s.cohort o.cohort
  let x := BputWord.ofNat o.bval.toNat
  let form := o.msub % 4
  let z := x.len form
  let core := (o.core + x.core) % 2
  let n := o.core / 2
  let src (j : Nat) : List Byte :=
    putBlock (r.cohRead c (o.coreOfAddr o.aval.toNat) (o.aval.toNat % 2 ^ 21 + z * j) z)
  let bad (j : Nat) : Bool := r.cohPoison c (o.coreOfAddr o.aval.toNat) (o.aval.toNat % 2 ^ 21 + z * j) z
  s.setPair n ((List.range x.count).foldl (fun p j =>
    ({ p with
      bbuf := p.bbuf.modify core fun m => m.writeN (blockLen * (x.first + j)) (src j)
      tags := p.tags.modify core fun ts => ts.set (x.first + j) (x.tag form) } : Pair).mark [.block core (x.first + j)] (bad j)) (s.pair n))

/-! ## `mrd` and `mwr` (R336) -/

/-- The bytes of pair state that a select word names (R336). -/
def selBytes (p : Pair) (obj : Nat) (x : SelWord) (mask : W256) : List Byte :=
  match obj with
  | 0 => (p.acc.getD x.acc []).readN (5120 * x.row) (5120 * x.nrow)
  | 1 => (p.nan.getD x.acc []).readN (16 * x.row) (16 * x.nrow)
  | 2 => p.sct.readN (512 * x.row) (512 * x.nrow)
  | _ => leBytes 32 mask.toNat

/-- The effect of `mrd` (R336). -/
def runMrd (s : State) (o : Op) : State :=
  s.cohWrite (s.cohort o.cohort) (o.coreOfAddr o.aval.toNat) (o.aval.toNat % 2 ^ 21)
    (selBytes (s.pair (o.core / 2)) (o.msub % 4) (.ofNat o.bval.toNat) o.mask)

/-- The effect of `mwr` (R336); poisoned data sets the NaN flags of the elements it writes (R316), and leaves poisoned rows of scores
(log 31). -/
def runMwr (r s : State) (o : Op) : State :=
  let x := SelWord.ofNat o.bval.toNat
  let obj := o.msub % 4
  let n := o.core / 2
  let p := s.pair n
  let bs := r.cohRead (r.cohort o.cohort) (o.coreOfAddr o.aval.toNat) (o.aval.toNat % 2 ^ 21) (x.bytes obj)
  let ones := List.replicate (16 * x.nrow) (255 : Byte)
  let nan (v : List Byte) (p : Pair) : Pair := { p with nan := p.nan.modify x.acc fun m => m.writeN (16 * x.row) v }
  let bad := r.matPoison o
  let rows := (List.range x.nrow).map (x.row + ·)
  match obj with
  | 0 =>
    let p := { p with acc := p.acc.modify x.acc fun m => m.writeN (5120 * x.row) bs }
    s.setPair n ((if bad then nan ones p else p).mark (rows.map (.acc x.acc)) false)
  | 1 => s.setPair n (nan (if bad then ones else bs) p)
  | 2 => s.setPair n (({ p with sct := p.sct.writeN (512 * x.row) bs } : Pair).mark (rows.map .score) bad)
  | _ => s.modGang o.cohort o.f2 fun g => g.put (.m x.mreg) (leNat bs)

/-! ## The queue (R306, R307, R316) -/

/-- The scratchpad that a queued operation leaves from poisoned data is poisoned (R316). -/
def State.spoilOf (s : State) (o : Op) : State :=
  let c := s.cohort o.cohort
  let a := o.aval.toNat % 2 ^ 21
  match o.opc with
  | 0xE4 =>
    if o.msub % 2 = 1 then s.spoilBlocks c o.core a 4
    else match s.gang? o.cohort o.f2 with
      | none => s
      | some g =>
        let d := Desc.ofWord o.aval
        s.spoil o.core ((elemOrder 128 128 1).map fun (x, y, _, _) =>
          linOf (g.phys (d.place g x y).1) (c.reloc (d.offAt g (d.place g x y).1 0 (d.place g x y).2)))
  | 0xE6 => s.spoilBlocks c o.core a ((Desc.ofWord o.bval).px / 32)
  | 0xE7 => s.spoilBlocks c o.core a 4
  | 0xEA => s.spoil (o.coreOfAddr o.aval.toNat) ((List.range ((SelWord.ofNat o.bval.toNat).bytes (o.msub % 4) / 4)).map fun i => c.linear (a + 4 * i))
  | _ => s

/-- The state with the gang of an operation as the issuing one. -/
def State.atGang (s : State) (cohort f2 : Nat) : State :=
  match s.gang? cohort f2 with
  | some g => s.select cohort f2 g.cur
  | none => s

/-- Effects in flight that the operation's slot issued before it on its bytes, and their place before the operation's accesses (R219): it
completes when R314 says so, and sees what they leave. -/
def State.placeBefore (s : State) (o : Op) : State :=
  if s.fxBefore o then
    let t := s.atGang o.cohort o.f2
    (t.fixFx fun x => x.slot = o.slot && x.num ≤ o.issued && x.inOp t o).select s.g.cohort s.g.f2 s.g.cur
  else s

/-- The scratchpads with those effects laid over them. -/
def State.withBefore (s : State) (o : Op) : State :=
  if s.fxBefore o then
    match s.gang? o.cohort o.f2 with
    | none => s
    | some g =>
      let before := g.fx.filter fun x => x.slot = o.slot && x.num ≤ o.issued && x.inOp s o
      { s with spad := before.foldl (fun m x => assocSet m x.core (x.over (assoc m x.core []))) s.spad }
  else s

/-- What a queued operation does, with what it reads in scratchpad. -/
def State.runMatrix (s : State) (o : Op) : State :=
  let s := s.placeBefore o
  let r := s.withBefore o
  let s' := match o.opc with
    | 0xE0 | 0xE1 => runMma r s o
    | 0xE2 => runScout r s o
    | 0xE3 => runHzn s o
    | 0xE4 => runDrain s o
    | 0xE5 => runAzero s o
    | 0xE6 => runQnt s o
    | 0xE7 => runTrq r s o
    | 0xE8 => runBput r s o
    | 0xEA => runMrd s o
    | _ => runMwr r s o
  if r.matPoison o then s'.spoilOf o else s'

/-- The operation at the head of a pair's queue. -/
def State.matHead (s : State) (n : Nat) : Option Op := (s.pair n).matq.head?.bind s.op?

/-- Whether the head of a pair's queue may start (R306). -/
def State.matStarts (s : State) (n : Nat) : Bool :=
  match s.matHead n with
  | some o => o.started = none && o.icyc < (s.pair n).cyc
  | none => false

/-- Whether it completes (R306). -/
def State.matEnds (s : State) (n : Nat) : Bool :=
  match s.matHead n with
  | some o => match o.started with | some t => t + o.dur ≤ (s.pair n).cyc | none => false
  | none => false

/-- MATRIX_OP_START (R306): no earlier than the cycle after issue, and at the completion of the operation ahead. -/
def execMatrixOpStart (n : Nat) (s : State) : Answer :=
  match s.matHead n with
  | some o => .next (if s.matStarts n then s.setOp { o with started := some (s.pair n).cyc } else s)
  | none => .next s

/-- MATRIX_OP_COMPLETE (R307, R316): the operation takes effect, and its entry completes with OK or ENGINE_ERROR. -/
def execMatrixOpComplete (n : Nat) (s : State) : Answer :=
  match s.matHead n with
  | some o =>
    if s.matEnds n then
      let s' := s.runMatrix o
      let p := s'.pair n
      let s' := s'.setPair n { p with matq := p.matq.drop 1 }
      .next (s'.endOp o (if s.matPoison o then 4 else 0) 0 0)
    else .next s
  | none => .next s

end Sys2Proof.Machine
end

