-- ==== Sys2Proof/Machine/Sched.lean ====
section
/-! DEFINITION. The states of gangs and the choice of the gang that issues (spec/17 R354 to R357), the end of a gang (spec/05 R96,
spec/11 R238) and the steps TRAP_ENTRY and COHORT_FAULT (spec/18 R362, R366). -/
namespace Sys2Proof.Machine

open Sys2Proof

/-! ## Traps as steps -/

/-- TRAP_ENTRY (R362): the instruction at hand traps with no effect. -/
def execTrapEntry (cause : Cause) (detail condw : Nat) (s : State) : Answer :=
  let s := s.land
  let (w, l) := s.wordHere
  .next (takeTrap s ⟨cause, detail, condw⟩ w l)

/-- COHORT_FAULT (R366). -/
def execCohortFault (cause : Cause) (s : State) : Answer :=
  let s := s.land
  .next (cohortFault s cause s.wordHere.1)

/-! ## The end of a gang (R36, R96, R238) -/

/-- The drops that an exiting gang makes from the launch barriers it has not dropped from; they apply 20 core cycles on (R238). -/
def State.leaveFxs (s : State) : List Fx :=
  let g := s.g
  let c := s.coh
  (g.kn.bars.zipIdx).filterMap fun p =>
    let k := g.bars.getD p.2 .none
    if k.dropped then none
    else
      let a := g.kn.s50 c.cb + p.1.1
      some { due := s.cyc + 20, slot := g.tag, core := coreOf c.pair g.core, addr := linOf (laneOf a) (c.reloc (offOf a)), len := 16
             deps := [], num := s.draws, op := .bleave (if k.valid then some k.gen else none) }

/-- Whether a gang ends now: no lane is left in a slot or on the stack, and every result has landed (R36, R96). -/
def Gang.ends (g : Gang) : Bool :=
  g.st != .exited && !g.s0.live && !g.s1.live && g.stackd = 0 && g.pend.isEmpty && g.fx.isEmpty

/-- GANG_END (R96, R238). -/
def execGangEnd (s : State) : Answer :=
  let s := s.land
  if s.g.ends then
    let s' := s.addFxs s.leaveFxs
    .next { s' with g := { s'.g with st := .exited } }
  else .next s

/-! ## Blocked and pending gangs (R354, R355) -/

/-- The slots of a gang that are live and not parked (R163). -/
def Gang.liveSlots (g : Gang) : List Slot := [g.s0, g.s1].filter fun x => x.live && !x.parked

/-- Whether a slot is held by a blocking instruction or at issue, as R354 lists them. -/
def Slot.isHeld (x : Slot) : Bool :=
  match x.block with
  | .wait _ _ _ _ _ _ | .fence _ _ _ | .chsend _ _ _ _ _ _ | .chrecv _ _ _ _ => true
  | .hold _ _ why ready => !ready && why != .acq
  | .none | .chrel _ _ _ | .tret _ _ => false

/-- A Blocked gang: every live slot is held (R354). -/
def Gang.isBlocked (g : Gang) : Bool := !(g.liveSlots.isEmpty) && g.liveSlots.all Slot.isHeld

/-- The service estimate E of an operation (R251, R359). R251 lists none for a `watch`: 400 (DESIGN CHOICE, log 51). -/
def State.opEst (s : State) (o : Op) : Nat :=
  match o.opc with
  | 0xD4 => 400 + (o.bytes + 63) / 64
  | 0xD5 | 0xD6 | 0xD7 => 400 + 2 * o.items.length
  | 0xD8 => 200 + (((((s.gang? o.cohort o.f2).map fun g => g.kn.chans).getD [])[o.aval.toNat]?.map (·.size)).getD 0 + 63) / 64
  | 0x13 => 400 + 4 * o.items.length
  | _ => 400

/-- The earliest possible end of an operation (R355). -/
def State.opEarliest (s : State) (o : Op) : Nat :=
  if o.eng = 5 then o.ti + (10 * o.bytes + 11) / 12 else o.ti + s.opEst o / 2

/-- The earliest possible satisfaction of a condition; none for never (R355). -/
def State.condEarliest (s : State) (mark : Nat) (w : W64) : Option Nat :=
  let k := condKind w
  if s.condSat mark w then some 0
  else if 1 ≤ k && k ≤ 0x7F then (s.opOfTag (s.g.entryOf w) (bits w.toNat 48 8)).map s.opEarliest
  else if k = 0x81 && bits w.toNat 48 8 = 0 then some (bits w.toNat 0 48)
  else none

/-- The least, or greatest, of times that may be infinite. -/
def leastTime (ts : List (Option Nat)) : Option Nat :=
  ts.foldl (fun m t => match m, t with | some a, some b => some (min a b) | some a, none => some a | none, x => x) none
def greatestTime (ts : List (Option Nat)) : Option Nat :=
  ts.foldl (fun m t => match m, t with | some a, some b => some (max a b) | _, _ => none) (some 0)

/-- The earliest possible satisfaction of the hold of a slot (R355). -/
def State.slotEarliest (s : State) (x : Slot) : Option Nat :=
  match x.block with
  | .none => some 0
  | .wait _ conds all _ _ mark =>
    let es := conds.map (s.condEarliest mark)
    if all then greatestTime es else leastTime es
  | _ => none

/-- The least over the live slots of the issuing gang. -/
def State.gangEarliest (s : State) : Option Nat := leastTime (s.g.liveSlots.map s.slotEarliest)

/-- The module's core of a gang. -/
def State.gangCore (s : State) (g : Gang) : Nat := coreOf (s.cohort g.cohort).pair g.core

/-- Gangs in the active set of a core (R356). -/
def State.activeOn (s : State) (core : Nat) : List Gang := s.gangs.filter fun g => g.st = .active && s.gangCore g = core

/-- Whether the issuing gang moves to Pending (R355). -/
def State.goesPending (s : State) : Bool :=
  s.g.st = .active && s.g.isBlocked && match s.gangEarliest with
    | none => true
    | some e => e > s.now + 64

/-- GANG_TO_PENDING (R355). -/
def execGangToPending (s : State) : Answer :=
  .next (if s.goesPending then { s with g := { s.g with st := .pending, eligAt := none } } else s)

/-- Whether a pending gang is eligible for the active set (R355): a hold has ended, or its time is near. -/
def State.becomesEligible (s : State) : Bool :=
  s.g.st = .pending && (!s.g.isBlocked || match s.gangEarliest with
    | none => false
    | some e => e ≤ s.now + 64)

/-- The eligible gangs of a core. -/
def State.eligibleOn (s : State) (core : Nat) : List Gang :=
  s.gangs.filter fun g => g.st = .pending && g.eligAt.isSome && s.gangCore g = core

/-- Whether gang a enters the active set before gang b (R356). -/
def entersBefore (a b : Gang) : Bool :=
  let x := a.eligAt.getD 0
  let y := b.eligAt.getD 0
  x < y || (x = y && (a.f2 < b.f2 || (a.f2 = b.f2 && a.cohort < b.cohort)))

/-- Whether the issuing gang takes the next free place of its core (R356). -/
def State.entersActive (s : State) : Bool :=
  let core := s.gangCore s.g
  s.g.st = .pending && s.g.eligAt.isSome && (s.activeOn core).length < Config.activeSet &&
  (s.eligibleOn core).all fun h => !(entersBefore h s.g)

/-- PENDING_ENTERS_ACTIVE (R356). -/
def execPendingEntersActive (s : State) : Answer :=
  .next (if s.entersActive then { s with g := { s.g with st := .active, activeAt := s.cyc, eligAt := none } } else s)

/-- Whether the issuing gang leaves the active set for one that has waited 256 core cycles (R356). -/
def State.rotatesOut (s : State) : Bool :=
  let core := s.gangCore s.g
  s.g.st = .active && (s.activeOn core).length ≥ Config.activeSet &&
  ((s.eligibleOn core).any fun h => (h.eligAt.getD s.cyc) + 256 ≤ s.cyc) &&
  (s.activeOn core).all fun h => s.g.activeAt < h.activeAt || (s.g.activeAt = h.activeAt && s.g.f2 ≤ h.f2)

/-- ACTIVE_ROTATION_OUT (R356): the gang longest in the set moves to Pending and stays eligible. -/
def execActiveRotationOut (s : State) : Answer :=
  .next (if s.rotatesOut then { s with g := { s.g with st := .pending, eligAt := some s.cyc } } else s)

/-! ## The issue choice (R171, R357) -/

/-- Whether a slot may issue now: live, not parked, not blocked, its STALL passed; one held at issue tries
again once it may. -/
def Slot.mayIssue (x : Slot) (t : Nat) : Bool :=
  x.live && !x.parked && x.next ≤ t && x.wake ≤ t && match x.block with
    | .none => true
    | .hold _ _ _ ready => ready
    | _ => false

/-- The slot of a gang that issues at cycle t: of two that are ready, the one that did not issue last (R171). -/
def Gang.issueSlot (g : Gang) (t : Nat) : Option Nat :=
  match g.s0.mayIssue t, g.s1.mayIssue t with
  | true, true => some (1 - g.lastSlot % 2)
  | true, false => some 0
  | false, true => some 1
  | false, false => none

/-- A Ready gang (R354): active, its cohort running, a slot ready. -/
def State.isReady (s : State) (g : Gang) : Bool :=
  let c := s.cohort g.cohort
  g.st = .active && c.st = .resident && (g.issueSlot (s.pair c.pair).cyc).isSome

/-- Whether the issue slots of a gang's quadrants are free in this cycle (R150, R151, R357). -/
def State.quadsFree (s : State) (g : Gang) : Bool :=
  (s.pair (s.cohort g.cohort).pair).allFree g.core (g.quads.map fun q => (.issue q, 1))

/-- The order of R357, core by core: last issue, F2, cohort number, then the core cycle of the launch's start, queue and SEQ. Children come
last. -/
def State.issueKey (s : State) (g : Gang) : List Nat :=
  let c := s.cohort g.cohort
  let l := s.launch? c.launch
  [s.gangCore g, g.lastIssue, g.f2, c.c, (l.map fun l => assoc l.startCyc c.pair 0).getD 0, (l.bind (·.queue)).getD 16, (l.map (·.seq)).getD 0, c.launch]

/-- Lexicographic order. -/
def keyLt : List Nat → List Nat → Bool
  | a :: as, b :: bs => a < b || (a = b && keyLt as bs)
  | _, _ => false

/-- The first of a list by a key. -/
def firstBy (key : Gang → List Nat) : List Gang → Option Gang
  | [] => none
  | g :: gs => match firstBy key gs with
    | none => some g
    | some h => if keyLt (key h) (key g) then some h else some g

/-- The gang and slot that issue next in this cycle; none when the cycle's issues are done (R357). -/
def State.choice (s : State) : Option (Gang × Nat) :=
  match firstBy s.issueKey (s.gangs.filter fun g => s.isReady g && s.quadsFree g) with
  | none => none
  | some g => (g.issueSlot (s.pair (s.cohort g.cohort).pair).cyc).map fun n => (g, n)

end Sys2Proof.Machine
end

