-- ==== Sys2Proof/Machine/Queue.lean ====
section
/-! DEFINITION. Queue interfaces and packets (spec/17 R342 to R347): SUBMISSION, PACKET_START, PACKET_COMPLETE, SIGNAL_PACKET and
COPY_PACKET. -/
namespace Sys2Proof.Machine

open Sys2Proof

/-! ## Queues of a partition -/

/-- Queue q of partition n. -/
def State.queue (s : State) (n q : Nat) : Queue := (s.part n).queues.getD q .init

/-- The state with a queue set. -/
def State.setQueue (s : State) (n q : Nat) (x : Queue) : State :=
  s.setPart n { s.part n with queues := (s.part n).queues.set q x }

/-- A queue with the packet of a sequence number changed. -/
def Queue.modPkt (x : Queue) (seq : Nat) (f : Pkt → Pkt) : Queue :=
  { x with pkts := x.pkts.map fun p => if p.seq = seq then f p else p }

/-- The status record of a refused packet (R347): it stands at entry SEQ mod 256, and vector 1 is sent (R401). -/
def State.statusRecord (s : State) (n q seq code detail : Nat) : State :=
  let x := s.queue n q
  let bytes := leBytes 4 seq ++ leBytes 1 code ++ leBytes 3 0 ++ leBytes 8 detail
  (s.setQueue n q { x with status := x.status.writeN (16 * (seq % 256)) bytes }).interrupt n 1

/-! ## Fields of a packet (R343) -/

/-- Word i of a packet. -/
def Pkt.word (p : Pkt) (i : Nat) : Nat := (p.words.getD i 0).toNat
def Pkt.type (p : Pkt) : Nat := bits (p.word 0) 0 8
def Pkt.chk (p : Pkt) : Bool := (p.word 0).testBit 8
def Pkt.ovl (p : Pkt) : Bool := (p.word 0).testBit 9
def Pkt.pasid (p : Pkt) : Nat := bits (p.word 0) 32 20
def Pkt.dsig (p : Pkt) : Nat := bits (p.word 1) 0 16
def Pkt.dv (p : Pkt) : Bool := (p.word 1).testBit 16
def Pkt.body0 (p : Pkt) : Nat := p.word 6
def Pkt.body1 (p : Pkt) : Nat := p.word 7

/-- The words of a submission of 64 bytes (R342). -/
def packetWords (bs : List Byte) : List W64 := (List.range 8).map fun i => BitVec.ofNat 64 (leNat ((bs.drop (8 * i)).take 8))

/-- The offset of the first field of a body that breaks its layout (R346, R408, R421). -/
def Pkt.badBody (p : Pkt) : Option Nat :=
  let a := p.body0
  let b := p.body1
  match p.type with
  | 1 => if a % 256 != 0 then some 48 else if b != 0 then some 56 else none
  | 2 => if b != 0 then some 56 else none
  | 3 => if a / 2 ^ 16 != 1 then some 48 else none
  | 4 => if b % 2 ^ 32 != 0 && a % 256 != 0 then some 48 else if b / 2 ^ 32 != 0 then some 56 else none
  | _ => if b % 64 != 0 then some 56 else none

/-- The offset of the first field of a packet that breaks R343 or its body's layout. -/
def Pkt.bad (p : Pkt) : Option Nat :=
  let w := p.word 0
  if p.type = 0 || p.type > 5 || bits w 10 22 != 0 || bits w 52 12 != 0 then some 0
  else if bits (p.word 1) 17 47 != 0 then some 8
  else match (List.range 4).find? fun i => !((p.word (2 + i)).testBit 16) && p.word (2 + i) != 0 with
    | some i => some (16 + 8 * i)
    | none => p.badBody

/-! ## Submission (R342, R343, R347) -/

/-- The refusal of a submission: code and detail, in the order of R347's table (log 20). -/
def State.submitRefusal (s : State) (n q off : Nat) (bytes : List Byte) (p : Pkt) : Option (Nat × Nat) :=
  if (s.queue n q).pkts.length ≥ 256 then some (1, 0)
  else if off != 0 || bytes.length != 64 then some (2, 0)
  else match p.bad with
    | some d => some (2, d)
    | none => if (s.part n).revoked.contains p.pasid then some (3, 0) else none

/-- SUBMISSION (R342, R343, R347): one write to a notify page. A refused packet takes no number. While port 0 is in boot mode it is refused
as every packet (R418). -/
def execSubmission (n q off : Nat) (bytes : List Byte) (s : State) : Answer :=
  if s.mg.status != 2 then .next (s.bootRefused n (8192 * q + off) true)
  else if !((s.part n).en) || q ≥ 16 then .next s
  else
    let x := s.queue n q
    let p : Pkt := { seq := x.nextSeq, words := packetWords bytes, started := false, work := false, done := false }
    match s.submitRefusal n q off bytes p with
    | some (code, d) => .next (s.statusRecord n q x.nextSeq code d)
    | none => .next (s.setQueue n q { x with pkts := x.pkts ++ [p], nextSeq := next32 x.nextSeq })

/-! ## Signals (R344) -/

/-- The value of a signal object; none where its address does not translate, or its page or line is poisoned. -/
def State.signal (s : State) (n i : Nat) : Option Nat := (s.inter8 n ((s.part n).sigbase + 8 * i)).toOption

/-- A count applied to a signal object at its home slice, as an RMW (R344): it reads and writes its page, which must allow both (R210). One of
another node leaves the module as an RMW packet (R402), and one on a poisoned page or line fails (R211). -/
def State.countSignal (s : State) (n i v : Nat) : State :=
  let ia := (s.part n).sigbase + 8 * i
  match s.stage2 n ia with
  | .error _ => s
  | .ok pg =>
    let la := pg.at_ ia
    if !pg.r || !pg.w || pg.psn then s
    else if pg.node != (s.part n).node then s.askOut n 5 pg.node la (.rmw 1 (BitVec.ofNat 64 v) 0 false)
    else if !(inHbm la || inCxl la) || s.linePoison la 8 then s
    else (s.writeMem la (leBytes 8 ((s.mem8 la + v) % 2 ^ 64))).triggerAll

/-! ## Starting and completing (R345) -/

/-- Whether the prerequisites of a packet are satisfied (R343, R344). -/
def State.prereqs (s : State) (n : Nat) (p : Pkt) : Bool :=
  (List.range 4).all fun i =>
    let w := p.word (2 + i)
    !(w.testBit 16) || match s.signal n (bits w 0 16) with
      | some v => bits w 17 47 ≤ v
      | none => false

/-- The packet that a queue may start now (R345): its oldest that has not started. Nothing starts in a halted partition (R403). -/
def State.startable (s : State) (n q : Nat) : Option Pkt :=
  let x := s.queue n q
  if (s.part n).halted || (s.part n).halting then none
  else match x.pkts.find? fun p => !p.started with
    | none => none
    | some p =>
      let pred := x.pkts.find? fun y => y.started && next32 y.seq = p.seq
      let free := match pred with
        | none => true
        | some y => p.ovl && y.type != 4
      if free && s.prereqs n p then some p else none

/-- PACKET_START (R345). -/
def execPacketStart (n q : Nat) (s : State) : Answer :=
  match s.startable n q with
  | none => .next s
  | some p => .next (s.setQueue n q ((s.queue n q).modPkt p.seq fun y => { y with started := true }))

/-- The started packet of a queue whose own step is still to be taken, if its type is t (R346). -/
def State.atWork (s : State) (n q t : Nat) : Option Pkt :=
  (s.queue n q).pkts.find? fun p => p.started && !p.work && p.type = t

/-- A packet's own step is taken; done says that its work is done with it. -/
def State.worked (s : State) (n q seq : Nat) (done : Bool) : State :=
  s.setQueue n q ((s.queue n q).modPkt seq fun y => { y with work := true, done := done })

/-- A packet is refused at start: nothing is executed, and it completes (R347). -/
def State.refuse (s : State) (n q seq code detail : Nat) : State := (s.worked n q seq true).statusRecord n q seq code detail

/-- The number that the operation of a copy packet carries in place of a gang. -/
def copyTag (n q seq : Nat) : Nat := 1 + seq + 2 ^ 32 * (q + 16 * n)

/-- Whether a packet's work is done (R345): a launch when it is done, a copy when its operation has ended. -/
def State.pktDone (s : State) (n q : Nat) (p : Pkt) : Bool :=
  p.started && p.work && (p.done || match p.type with
    | 1 => s.launches.any fun l => l.part = n && l.queue = some q && l.seq = p.seq && l.done
    | 2 => !(s.ops.any fun o => o.cohort = 0 && o.f2 = copyTag n q p.seq)
    | _ => false)

/-- Whether a launch, or one of a saved context, binds a version of a code object (R415, R416). -/
def State.binds (s : State) (n : Nat) (o : CodeObj) : Bool :=
  (s.launches ++ (s.part n).contexts.flatMap fun x => x.2.launches).any fun l => l.part = n && l.code = o.id

/-- An old version that no launch binds any more leaves the heap (R415). -/
def State.freeCode (s : State) (n : Nat) : State :=
  s.setPart n { s.part n with objs := (s.part n).objs.filter fun o => o.live || s.binds n o }

/-- PACKET_COMPLETE (R344, R345): DSIG counts up by 1; a launch that END ended is reported (R400). -/
def execPacketComplete (n q : Nat) (s : State) : Answer :=
  match (s.queue n q).pkts.find? fun p => s.pktDone n q p with
  | none => .next s
  | some p =>
    let x := s.queue n q
    let mine (l : Launch) : Bool := l.part = n && l.queue = some q && l.seq = p.seq && l.done
    let ended := s.launches.any fun l => mine l && l.ended
    let s := s.setQueue n q { x with pkts := x.pkts.filter fun y => y.seq != p.seq }
    let s : State := { s with launches := s.launches.filter fun l => !(mine l) }
    let s := s.freeCode n
    let s := if ended then s.event n (eventBytes 3 q p.seq 0 0 0 0 0 s.now) else s
    .next (if p.dv then s.countSignal n p.dsig 1 else s)

/-- SIGNAL_PACKET (R346). -/
def execSignalPacket (n q : Nat) (s : State) : Answer :=
  match s.atWork n q 3 with
  | none => .next s
  | some p => .next ((s.countSignal n (bits p.body0 0 16) p.body1).worked n q p.seq true)

/-! ## Copies (R346) -/

/-- The operation of a copy packet: `cpy.gg` without conversion from record u to record t (R289 to R292). A packet names no slack class: its initial
slack is 0, with BG 0 (DESIGN CHOICE, log 19). -/
def State.copyOp (s : State) (n q : Nat) (p : Pkt) (t u : List Byte) : Op :=
  { id := s.nextOp, eng := 1, tag := 0, cohort := 0, f2 := copyTag n q p.seq, slot := 0, core := 1024, pasid := p.pasid, part := n,
    ti := s.now, slack := 0, bg := false, late := false, word := BitVec.ofNat 64 (0xD4 * 2 ^ 56 + 40), aval := 0, bval := 0, cval := 0,
    aux := 0, rec1 := t, rec2 := u, z := 0, items := [], failedBefore := 0, listed := 0, bytes := 0, opreg := 0, time := 0,
    waited := true, probed := false, pins := [], deps := [], rel := false, issued := 0, icyc := 0, dur := 0, started := none, mask := 0,
    src := [], poisoned := false, tfault := false, cancelled := false }

/-- COPY_PACKET (R346): the records are read at start; their shapes and formats must agree, or the packet is refused (log 19). -/
def execCopyPacket (n q : Nat) (s : State) : Answer :=
  match s.atWork n q 2 with
  | none => .next s
  | some p =>
    let v := s.hubTouch s n p.pasid p.body0 64
    match s.hubGet n p.pasid p.body0 64 with
    | .error _ => .next (v.refuse n q p.seq 4 0)
    | .ok bs =>
      let t := Tens.ofBytes (bs.take 32)
      let u := Tens.ofBytes (bs.drop 32)
      if !(t.valid && u.valid && t.extx = u.extx && t.exty = u.exty && t.extd = u.extd && t.fmt = u.fmt && t.eb = u.eb &&
          t.planes = u.planes) then .next (v.refuse n q p.seq 5 0)
      else
        let s := v
        let o := s.copyOp n q p (bs.take 32) (bs.drop 32)
        let o : Op := { o with bytes := t.bytes, items := copyItems (unitsGg o) }
        let s' := s.worked n q p.seq false
        .next { s' with ops := s'.ops ++ [o], nextOp := s'.nextOp + 1 }

end Sys2Proof.Machine
end

