-- ==== Sys2Proof/Machine/Place.lean ====
section
/-! DEFINITION. Placing cohorts (spec/17 R351, R352, spec/10 R204) and the start of a cohort's gangs (spec/02 R19, R24 to R26, spec/04
R73, spec/17 R349, R352). What the dispatcher may choose is a free value (log 4). -/
namespace Sys2Proof.Machine

open Sys2Proof

/-! ## Room on a pair (R351) -/

/-- A gang's place: core of the module, origin, extents and the registers of a lane. -/
structure Spot where
  core : Nat
  ox : Nat
  oy : Nat
  ex : Nat
  ey : Nat
  regs : Nat
  deriving DecidableEq, Repr

/-- The place of a gang. -/
def State.spotOf (s : State) (g : Gang) : Spot :=
  { core := s.gangCore g, ox := g.ox, oy := g.oy, ex := g.ex, ey := g.ey, regs := g.kn.regs * g.passes }

/-- The physical lanes of a place. -/
def Spot.lanes (x : Spot) : List Nat :=
  (List.range x.ey).flatMap fun y => (List.range x.ex).map fun i => (x.ox + i) + 16 * (x.oy + y)

/-- Whether a place holds a physical lane. -/
def Spot.has (x : Spot) (l : Nat) : Bool := x.ox ≤ l % 16 && l % 16 < x.ox + x.ex && x.oy ≤ l / 16 && l / 16 < x.oy + x.ey

/-- Whether one more gang finds room beside those placed (R351). -/
def spotFits (xs : List Spot) (y : Spot) : Bool :=
  let mine := xs.filter fun x => x.core = y.core
  mine.length < 32 && y.lanes.all fun l => ((mine.filter fun x => x.has l).map (·.regs)).sum + y.regs ≤ 512

/-- The places of the resident gangs on a pair (R351); an exited gang is resident no more (log 21). -/
def State.spotsOn (s : State) (pair : Nat) : List Spot :=
  (s.gangs.filter fun g => g.st != .exited && (s.cohort g.cohort).id != 0 && (s.cohort g.cohort).pair = pair).map s.spotOf

/-- The aligned places that gangs of a kernel may take on a pair (R149). -/
def Kern.tiles (k : Kern) (pair : Nat) : List Spot :=
  let ex := min (2 ^ k.width 0) 16
  let ey := min (2 ^ k.width 1) 16
  let passes := (2 ^ k.width 0 / ex) * (2 ^ k.width 1 / ey)
  (List.range 2).flatMap fun c => (List.range (16 / ey)).flatMap fun y => (List.range (16 / ex)).map fun x =>
    { core := coreOf pair c, ox := x * ex, oy := y * ey, ex := ex, ey := ey, regs := k.regs * passes }

/-- Places for n gangs, one after another, each a free choice; none when they do not fit. Gangs of one cohort have one shape, so that
no choice leaves less room than another. -/
def placeGangs (draws salt : Nat) (tiles : List Spot) : Nat → List Spot → Option (List Spot)
  | 0, _ => some []
  | n + 1, xs =>
    match tiles.filter fun t => spotFits xs t with
    | [] => none
    | t :: ts =>
      let y := (t :: ts).getD (Config.free draws (salt + n) % (ts.length + 1)) t
      (placeGangs draws salt tiles n (y :: xs)).map fun ys => y :: ys

/-- Bytes of lane offset of a cohort (R204). -/
def Kern.cs (k : Kern) : Nat := 256 + k.stackBytes + k.scr

/-- The physical bases at which an allocation of a cohort is free on a pair (R204, R351). -/
def State.freeBases (s : State) (pair cs : Nat) : List Nat :=
  let used := s.cohorts.filter fun c => c.pair = pair && c.st != .saved
  ((List.range 33).map (256 * ·)).filter fun b => b + cs ≤ 8192 && used.all fun c => b + cs ≤ c.pb || c.pb + c.cs ≤ b

/-- Whether a pair is free for the matrix use of a kernel (R304, R351). -/
def State.matFree (s : State) (pair : Nat) (mat : Bool) : Bool := !mat || (s.pair pair).holder.isNone

/-- A cohort of a kernel fits a pair: its base and the places of its gangs (R351). -/
def State.fit (s : State) (k : Kern) (pair : Nat) : Option (Nat × List Spot) :=
  match s.freeBases pair k.cs, s.matFree pair k.mat with
  | b :: bs, true =>
    match placeGangs s.draws (1000 * pair + 100) (k.tiles pair) (2 ^ k.width 2) (s.spotsOn pair) with
    | some ys => some ((b :: bs).getD (Config.free s.draws (1000 * pair + 99) % (bs.length + 1)) b, ys)
    | none => none
  | _, _ => none

/-- Whether a cohort of a kernel fits an empty pair (R351). -/
def Kern.fitsEmpty (k : Kern) : Bool := k.cs ≤ 8192 && (placeGangs 0 0 (k.tiles 0) (2 ^ k.width 2) []).isSome

/-- A cluster fits the aligned block of pairs from p on: base and places of each cohort (R352). -/
def State.fitBlock (s : State) (k : Kern) (p : Nat) : Nat → Option (List (Nat × List Spot))
  | 0 => some []
  | n + 1 =>
    match s.fitBlock k p n, s.fit k (p + n) with
    | some xs, some x => some (xs ++ [x])
    | _, _ => none

/-- The aligned blocks of pairs of a partition for 2^w3 cohorts, by their first pair (R352). -/
def Part.blocks (p : Part) (w3 : Nat) : List Nat :=
  p.dieList.flatMap fun d => (List.range (Config.pairsPerDie / 2 ^ w3)).map fun i => Config.pairsPerDie * d + i * 2 ^ w3

/-- A block for a cluster among those that fit: a free choice (R351, R352). -/
def State.fitCluster (s : State) (part : Nat) (k : Kern) : Option (Nat × List (Nat × List Spot)) :=
  let fits := ((s.part part).blocks (k.width 3)).filterMap fun p => (s.fitBlock k p (2 ^ k.width 3)).map fun x => (p, x)
  match fits with
  | [] => none
  | x :: xs => some ((x :: xs).getD (Config.free s.draws 30 % (xs.length + 1)) x)

/-! ## A gang at its start (R19, R24 to R26, R73) -/

/-- The finalizer of R73. -/
def mix64 (z : Nat) : Nat :=
  let z := Nat.xor z (z / 2 ^ 30) * 0xBF58476D1CE4E5B9 % 2 ^ 64
  let z := Nat.xor z (z / 2 ^ 27) * 0x94D049BB133111EB % 2 ^ 64
  Nat.xor z (z / 2 ^ 31)

/-- Where field i of the work identifier begins (R147). -/
def Kern.fieldAt (k : Kern) (i : Nat) : Nat := ((List.range i).map k.width).sum

/-- s48: the work identifier of a gang of cohort c and part v (R24, R148, R350). -/
def Kern.workId (k : Kern) (c v f2 : Nat) : Nat :=
  (f2 * 2 ^ k.fieldAt 2 + c * 2 ^ k.fieldAt 3 + v * 2 ^ k.fieldAt 5) % 2 ^ 64

/-- The s registers at gang start (R24). -/
def startRegs (k : Kern) (l : Launch) (c : Cohort) (f2 : Nat) : List W64 :=
  let s50 := k.s50 c.cb
  (List.range 64).map fun i =>
    if 32 ≤ i && i < 48 then l.args.getD (i - 32) 0
    else match i with
      | 31 => BitVec.ofNat 64 (c.cb * 256)
      | 48 => BitVec.ofNat 64 (k.workId c.c l.partv f2)
      | 49 => l.stamp
      | 50 => BitVec.ofNat 64 s50
      | 51 => BitVec.ofNat 64 k.scr
      | 62 => BitVec.ofNat 64 (s50 + 256 * k.scr)
      | _ => 0

/-- A gang at its start (R19, R25, R26), in core cycle cyc. It issues no sooner than in cycle first: the time from a cohort's placement to
its first issue is open (R427), and a free choice (log 7). -/
def startGang (k : Kern) (l : Launch) (c : Cohort) (f2 : Nat) (x : Spot) (cyc first : Nat) (active : Bool) : Gang :=
  let w := k.workId c.c l.partv f2
  let size := 2 ^ k.width 0 * 2 ^ k.width 1
  { Gang.idle with
    cohort := c.id, f2 := f2, core := x.core % 2, ox := x.ox, oy := x.oy, kn := k
    lanes := (List.range size).map fun i => Lane.init k.regs (BitVec.ofNat 64 (Nat.xor l.seed.toNat (mix64 (w + i))))
    s := startRegs k l c f2
    s0 := { Slot.free with pc := k.entry, mask := 2 ^ size - 1, live := true, next := first }
    chk := l.chk, slackdef := k.slack, cycBase := cyc, regpc := k.entry, basepc := k.entry, without0 := (k.entry, 0), without1 := (k.entry, 0)
    st := if active then .active else .pending, activeAt := cyc, eligAt := if active then none else some cyc }

/-! ## A cohort at its start (R204, R304, R349, R352) -/

/-- The allocation of a cohort is cleared in both cores (R204). -/
def State.clearAlloc (s : State) (c : Cohort) : State :=
  let out (a : Nat) : Bool := offOf a < c.pb || c.pb + c.cs ≤ offOf a
  let mine (core : Nat) : Bool := core / 2 = c.pair
  { s with
    spad := s.spad.map fun p => if mine p.1 then (p.1, p.2.filter fun e => out e.1) else p
    spoison := s.spoison.filter fun p => !(mine p.1) || out p.2 }

/-- The writes of R349 in one core: argument block, data image, launch barriers. An image beyond the program's part is cut (log 22). -/
def State.startWrites (s : State) (k : Kern) (l : Launch) (c : Cohort) (core : Nat) : State :=
  let s50 := k.s50 c.cb
  let s := s.cohWrite c core (c.cb * 256) (l.argblock.take 4096)
  let s := s.cohWrite c core s50 (k.data.take (256 * k.scr))
  k.bars.foldl (fun s b => s.cohWrite c core (s50 + b.1) (Barr.init b.2).bytes) s

/-- The pair passes to a cohort that uses the matrix pair: cleared unless its launch held it last (R304). -/
def Pair.passTo (p : Pair) (mat : Bool) (cohort launch : Nat) : Pair :=
  if !mat then p
  else if p.holderLaunch = some launch then { p with holder := some cohort }
  else { p with holder := some cohort, holderLaunch := some launch, acc := Pair.init.acc, nan := Pair.init.nan, bbuf := Pair.init.bbuf,
                tags := Pair.init.tags, sct := [], psn := [] }

/-- Gangs join their cores' active sets in increasing number while there is room (R352). -/
def State.joinGangs (s : State) (make : Nat → Spot → Bool → Gang) : Nat → List Spot → State
  | _, [] => s
  | f2, x :: xs =>
    let g := make f2 x ((s.activeOn x.core).length < Config.activeSet)
    let s' : State := { s with others := s.others ++ [g] }
    s'.joinGangs make (f2 + 1) xs

/-- Cohort c of a launch starts on a pair at a base, its gangs at their places (R349, R352). -/
def State.startCohort (s : State) (l : Launch) (c pair base : Nat) (spots : List Spot) : State :=
  let k := l.kern
  let d : Cohort :=
    { Cohort.empty with
      id := s.nextId, launch := l.id, c := c, pair := pair, cb := base, pb := base, cs := k.cs
      chans := k.chans.map fun _ => .zero, bc := List.replicate 8 idPerm }
  let s : State := { s with cohorts := s.cohorts ++ [d], nextId := s.nextId + 1 }
  let s := s.setPair pair ((s.pair pair).passTo k.mat d.id l.id)
  let s := s.clearAlloc d
  let s := (s.startWrites k l d (coreOf pair 0)).startWrites k l d (coreOf pair 1)
  let t := (s.pair pair).cyc
  s.joinGangs (fun f2 x a => startGang k l d f2 x t (t + Config.free s.draws (40000 + d.id)) a) 0 spots

/-- Cluster F4 of a launch starts on a block of pairs (R350, R352). -/
def State.startCluster (s : State) (l : Launch) (f4 p : Nat) (fits : List (Nat × List Spot)) : State :=
  (fits.zipIdx).foldl (fun s x => s.startCohort l (x.2 + 2 ^ l.kern.width 3 * f4) (p + x.2) x.1.1 x.1.2) s

end Sys2Proof.Machine
end

