-- ==== Sys2Proof/Machine/Launch.lean ====
section
/-! DEFINITION. Launches (spec/17 R347 to R349, R358, R359, spec/22 R406, R413, R416): the launch record, the kernel it binds,
LAUNCH_PACKET, `launch` and CHILD_START. -/
namespace Sys2Proof.Machine

open Sys2Proof

/-! ## Code objects as a launch reads them (R405, R406, R410) -/

/-- n little-endian bytes of a byte string at an offset (R5). -/
def le (bs : List Byte) (off n : Nat) : Nat := leNat ((bs.drop off).take n)

/-- Header fields of a container (R405). -/
def CodeObj.nkern (o : CodeObj) : Nat := le o.obj 20 4
def CodeObj.isNative (o : CodeObj) : Bool := (le o.obj 56 4).testBit 0
/-- Kernel table entry i (R406). -/
def CodeObj.entry (o : CodeObj) (i : Nat) : List Byte := (o.obj.drop (le o.obj 24 4 + 576 * i)).take 576

/-- The 32-bit units of a byte string (R43). -/
def unitsOf : List Byte → List W32
  | a :: b :: c :: d :: bs => BitVec.ofNat 32 (leNat [a, b, c, d]) :: unitsOf bs
  | _ => []

/-- Widths of a launch record or template (R104, R348). -/
def recWidths (r : List Byte) : List Nat := (List.range 6).map fun i => bits (le r 16 8) (6 * i) 6

/-- Launch barriers of a kernel table entry: image offset and expected count (R406). -/
def entryBars (e : List Byte) : List (Nat × Nat) := (List.range (le e 62 1)).map fun i => (le e (160 + 8 * i) 4, le e (164 + 8 * i) 4)

/-- Channels of a kernel table entry (R406). -/
def entryChans (e : List Byte) : List Chan :=
  (List.range (le e 63 1)).map fun i =>
    let b := 288 + 16 * i
    { prod := le e b 1, cons := le e (b + 1) 1, slots := le e (b + 2) 1, size := le e (b + 4) 4, off := le e (b + 8) 4 }

/-- A handler address, none for 0xFFFF_FFFF (R406, R410). -/
def handlerOf (n : Nat) : Option Nat := if n = 0xFFFFFFFF then none else some n

/-- Entry, handler, first code address and text of a kernel, as the native section has them (R410). -/
def CodeObj.code (o : CodeObj) (i : Nat) : Nat × Option Nat × Nat × List W32 :=
  let table := 2048 + 8 * i
  let (first, len) := o.ranges.getD i (0, 0)
  let base := (first + 3) / 4 * 4
  (le o.native table 4, handlerOf (le o.native (table + 4) 4), base,
    unitsOf ((o.native.drop (2048 + 8 * o.nkern + base)).take (first + len - base)))

/-- What a launch knows of its kernel: its record r and the kernel's table entry (R348, R406). -/
def CodeObj.kern (o : CodeObj) (r : List Byte) (i : Nat) : Kern :=
  let e := o.entry i
  let (entry, handler, base, text) := o.code i
  { w := recWidths r, regs := le r 24 2, scr := le r 26 2, divd := le r 28 1, slack := le r 29 1, hang := le r 32 8
    mat := (le r 12 4).testBit 0, entry := entry, handler := handler, base := base, text := text
    data := (o.obj.drop (le o.obj 40 4 + le e 16 4)).take (le e 20 4), bars := entryBars e, chans := entryChans e
    waits := o.waits }

/-! ## Checks of a launch record (R15, R347, R348) -/

/-- The limits of R15 on widths. -/
def widthsOk (w : List Nat) : Bool :=
  w.getD 0 0 ≤ 6 && w.getD 1 0 ≤ 6 && w.getD 2 0 ≤ 5 && w.getD 3 0 ≤ 4 && w.getD 4 0 ≤ 32 && w.getD 5 0 ≤ 32 && w.sum ≤ 64

/-- The checks of the fields of a record that a template has too, each with its offset. -/
def templateChecks (r : List Byte) : List (Nat × Bool) :=
  [(12, le r 12 4 / 2 = 0), (16, widthsOk (recWidths r) && le r 16 8 < 2 ^ 36),
   (24, 8 ≤ le r 24 2 && le r 24 2 ≤ 256 && le r 24 2 % 8 = 0), (26, le r 26 2 % 256 = 0 && le r 26 2 ≤ 8192),
   (28, 1 ≤ le r 28 1 && le r 28 1 ≤ 64), (29, 1 ≤ le r 29 1 && le r 29 1 ≤ 14), (30, le r 30 1 ≤ 16), (31, le r 31 1 ≤ 16),
   (32, 1000 ≤ le r 32 8 && le r 32 8 ≤ 2 ^ 40), (68, le r 68 60 = 0)]

/-- The offset of the first field of a launch record that breaks R348; e is the kernel's table entry. -/
def recordBad (r e : List Byte) : Option Nat :=
  let more : List (Nat × Bool) :=
    [(30, le r 30 1 = le e 62 1), (31, le r 31 1 = le e 63 1), (48, le r 48 8 < 2 ^ (recWidths r).getD 5 0), (56, le r 56 8 % 16 = 0),
     (64, le r 64 4 ≤ 4096 && (le r 64 4 = 0 || le r 56 8 != 0))]
  let bad := (templateChecks r ++ more).filterMap fun p => if p.2 then none else some p.1
  match bad with
  | [] => none
  | b :: bs => some (bs.foldl min b)

/-- Whether every channel slot of a kernel lies in the program's part (R269, R351). -/
def Kern.chansFit (k : Kern) : Bool := k.chans.all fun x => x.off % 2 ^ 21 + x.slots * x.size ≤ 256 * k.scr && x.off < 2 ^ 22

/-- Why a launch does not start: a code of R347 with its detail, or a record that cannot be read, with the item code of R256. -/
inductive NoLaunch
  | refused (code detail : Nat)
  | unread (code : Nat)
  deriving DecidableEq, Repr

/-- The published object of a handle (R413). -/
def Part.object (p : Part) (handle : Nat) : Option CodeObj := p.objs.find? fun o => o.live && o.handle = handle

/-- A launch stamp that no launch of the partition has had since its reset, the first from x on (R24); used lists those taken. -/
def freshStamp (used : List Nat) : Nat → Nat → Nat
  | 0, x => x % 2 ^ 64
  | n + 1, x => if used.contains (x % 2 ^ 64) then freshStamp used n (x + 1) else x % 2 ^ 64

/-- The stamp of the next launch of a partition (R24). -/
def Part.nextStamp (p : Part) : Nat := freshStamp p.stamps p.stamps.length (Config.launchStamp p.stamps.length)

/-- A launch record is read and checked in the order of R347; the launch binds the version published now (R416). -/
def State.readLaunch (s : State) (n pasid addr : Nat) (chk : Bool) (queue : Option Nat) (seq prio : Nat)
    (parent : Option (Nat × Nat × Nat)) : Except NoLaunch Launch :=
  match s.hubGet n pasid addr 256 with
  | .error c => .error (.unread c)
  | .ok r =>
    match (s.part n).object (le r 0 8) with
    | none => .error (.refused 6 0)
    | some o =>
      let i := le r 8 4
      if i ≥ o.nkern then .error (.refused 6 8)
      else match recordBad r (o.entry i) with
        | some d => .error (.refused 5 d)
        | none =>
          match s.hubGet n pasid (le r 56 8) (le r 64 4) with
          | .error _ => .error (.refused 4 0)
          | .ok args =>
            let k := o.kern r i
            if !(k.fitsEmpty && k.chansFit) then .error (.refused 7 0)
            else .ok
              { id := s.nextId, part := n, queue := queue, seq := seq, pasid := pasid, prio := prio, chk := chk
                seed := BitVec.ofNat 64 (le r 40 8), partv := le r 48 8
                args := (List.range 16).map fun j => BitVec.ofNat 64 (le r (128 + 8 * j) 8)
                argblock := args, stamp := BitVec.ofNat 64 (s.part n).nextStamp, kern := k, handle := o.handle, version := o.version, code := o.id
                nextCluster := 0, started := s.now, startCyc := s.pairs.map fun p => (p.1, p.2.cyc), ended := false, done := false, parent := parent }

/-- What reading a launch record leaves of its reads, made in state v (R392, R393): the argument block's come with a launch that starts. -/
def State.readTouch (s v : State) (n pasid addr : Nat) (args : Option Nat) : State :=
  let s := s.hubTouch v n pasid addr 256
  match args, v.hubGet n pasid addr 256 with
  | some len, .ok r => s.hubTouch v n pasid (le r 56 8) len
  | _, _ => s

/-- Every pair of a partition stands in the state, so that its core cycles are counted from now on. -/
def State.listPairs (s : State) (n : Nat) : State :=
  ((s.part n).dieList.flatMap fun d => (List.range 24).map (24 * d + ·)).foldl (fun s p =>
    if s.pairs.any fun x => x.1 == p then s else s.setPair p .init) s

/-- A launch starts (R345): the dispatcher considers its clusters from now on. -/
def State.addLaunch (s : State) (l : Launch) : State :=
  let s := s.listPairs l.part
  let s' := s.setPart l.part { s.part l.part with stamps := l.stamp.toNat :: (s.part l.part).stamps }
  { s' with launches := s'.launches ++ [l], nextId := s'.nextId + 1 }

/-- LAUNCH_PACKET (R347, R348). The detail of RECORD_FAULT is 0, as for NO_FIT (log 20). -/
def execLaunchPacket (n q : Nat) (s : State) : Answer :=
  match s.atWork n q 1 with
  | none => .next s
  | some p =>
    let t := s.readTouch s n p.pasid p.body0
    match s.readLaunch n p.pasid p.body0 p.chk (some q) p.seq (s.queue n q).prio none with
    | .error (.refused code d) => .next ((t none).refuse n q p.seq code d)
    | .error (.unread _) => .next ((t none).refuse n q p.seq 4 0)
    | .ok l => .next (((t (some l.argblock.length)).addLaunch l).worked n q p.seq false)

/-! ## Device-side launch (R358, R359) -/

/-- The queue priority of a launch as it stands (R353, R399). -/
def State.launchPrio (s : State) (l : Launch) : Nat :=
  match l.queue with
  | some q => (s.queue l.part q).prio
  | none => l.prio

/-- Children enter the device launch queue in lane order, as one batch (R359). -/
def State.addChildren (s : State) (n : Nat) (o : Op) (prio : Nat) : State :=
  let cs : List Child := (o.items.zipIdx).map fun x =>
    { cohort := o.cohort, f2 := o.f2, tag := o.tag, op := o.id, item := x.2, pasid := o.pasid, prio := prio, addr := x.1.addr }
  s.setPart n { s.part n with childq := (s.part n).childq ++ cs }

/-- `launch` (R358, R359): its slot's earlier accesses all come before those of its children. -/
def launchBody (s : State) (f : Fields) : Except Flt (State × Flow) :=
  let ks := s.performing f.h
  let n := s.myPart
  let items : List Item := ks.map fun k => { k := k, idx := 0, off := 0, addr := s.globalAddr f k, data := [], st := .todo }
  let full := (s.part n).childq.length + ks.length > 4096 || s.engCount 6 ≥ 64
  if full then .error ⟨.launchFull, ks.length, 0⟩
  else
    let o := { s.opBase 0x13 6 f with items := items, deps := s.slotOps s.g.tag false, rel := true }
    let prio := (s.myLaunch.map s.launchPrio).getD 0
    match s.issueEst f o [] (400 + 4 * ks.length) false with
    | (s', .seq n') => .ok (s'.addChildren n ((s'.op? o.id).getD o) prio, .seq n')
    | x => .ok x

/-- `launch` (R358, R359). -/
def execLaunch (f : Fields) (s : State) : Answer :=
  issueF 0x13 f s fun s f => uniform f.h (fun s => launchBody s f) s

/-- LATE of an operation whose record the hub reads now: it is late once it has no slack; with one unit left a single tick on the way would take it,
which is a free choice (R278, R279, R281, log 8). -/
def State.lateNow (s : State) (o : Op) : Bool :=
  o.late || (o.slackNow s.now).2 || ((o.slackNow s.now).1 = 1 && Config.free s.draws 22 % 2 = 1)

/-- The item of a child takes its outcome; the reads of its record may have run late (R281, R358). -/
def State.childItem (s : State) (c : Child) (st : ItemSt) : State :=
  match s.op? c.op with
  | none => s
  | some o =>
    let s' := s.setOp { o.setItem c.item (fun i => { i with st := st }) with late := s.lateNow o }
    { s' with draws := s'.draws + 1 }

/-- Whether the first child of a partition's device launch queue may start: the accesses before its `launch` are performed (R359). -/
def State.childReady (s : State) (n : Nat) : Bool :=
  !((s.part n).halted || (s.part n).halting) && match (s.part n).childq with
  | [] => false
  | c :: _ => match s.op? c.op with
    | some o => s.opGo o
    | none => true

/-- The priority with which a child starts: its parent's queue priority at its turn, or as it was at issue once the parent's cohort is gone
(R359, R399). -/
def State.childPrio (s : State) (c : Child) : Nat :=
  ((s.launch? (s.cohort c.cohort).launch).map s.launchPrio).getD c.prio

/-- CHILD_START (R359): the first child starts, or fails its item. -/
def execChildStart (n : Nat) (s : State) : Answer :=
  match (s.part n).childq with
  | [] => .next s
  | c :: rest =>
    if !(s.childReady n) then .next s
    else
      let s := s.setPart n { s.part n with childq := rest }
      let t := s.readTouch s n c.pasid c.addr
      match s.readLaunch n c.pasid c.addr false none 0 (s.childPrio c) (some (c.cohort, c.f2, c.op)) with
      | .error (.refused _ _) => .next ((t none).childItem c (.failed codeRefused c.addr))
      | .error (.unread code) => .next ((t none).childItem c (.failed code c.addr))
      | .ok l => .next (((t (some l.argblock.length)).addLaunch l).childItem c .done)

end Sys2Proof.Machine
end

