-- ==== Sys2Proof/Machine/Save.lean ====
section
/-! DEFINITION. Pre-emption up to the saved report (spec/18 R366, R369 to R375): PREEMPT_STOP, QUIESCE, SAVE_REPORT, with the layouts of
re-issue records, gang records and images. -/
namespace Sys2Proof.Machine

open Sys2Proof

/-! ## The stop (R369) -/

/-- A slot at its stop point: a blocking or held instruction is abandoned, and executes again later; a `tret` that has issued completes first
(R369). -/
def Slot.abandon (x : Slot) : Slot :=
  match x.block with
  | .tret _ _ => x
  | _ => { x with block := .none }

/-- Whether a `tret` of the gang has issued and not completed. -/
def Gang.inReturn (g : Gang) : Bool :=
  [g.s0, g.s1].any fun x => x.live && match x.block with | .tret _ _ => true | _ => false

/-- A gang at its stop point, at core cycle t (R354, R369). -/
def Gang.halt (t : Nat) (g : Gang) : Gang :=
  if g.st = .active || g.st = .pending then { g.settled with st := .saved, s0 := g.s0.abandon, s1 := g.s1.abandon, stopAt := t }
  else { g with stopAt := t }

/-- The state with a change made to every gang of a cohort. -/
def State.modGangs (s : State) (cohort : Nat) (h : Gang → Gang) : State :=
  let f (g : Gang) : Gang := if g.cohort = cohort then h g else g
  { s with g := f s.g, others := s.others.map f }

/-- The gangs of a cohort. -/
def State.gangsOf (s : State) (cohort : Nat) : List Gang := s.gangs.filter fun g => g.cohort = cohort

/-- Whether END has ended the launch of a cohort (R399). -/
def State.endedCohort (s : State) (c : Cohort) : Bool := ((s.launch? c.launch).map (·.ended)).getD false

/-- Whether the partition of a cohort is being halted, or is (R403). -/
def State.haltingCohort (s : State) (c : Cohort) : Bool := ((s.launch? c.launch).map fun l => (s.part l.part).halting || (s.part l.part).halted).getD false

/-- Whether the gangs of a cohort are to stop now (R366, R369, R399, R403). -/
def State.stops (s : State) (c : Cohort) : Bool :=
  (c.st = .resident && (c.saveReq || s.endedCohort c || s.haltingCohort c)) ||
  (c.st = .stopped && (s.gangsOf c.id).any fun g => g.st = .active || g.st = .pending)

/-- PREEMPT_STOP (R369): every gang of the cohort issues nothing further. -/
def execPreemptStop (id : Nat) (s : State) : Answer :=
  let c := s.cohort id
  if s.stops c then .next ((s.setCohort { c with st := .stopped }).modGangs id (Gang.halt (s.pair c.pair).cyc)) else .next s

/-! ## Re-issue records (R372) -/

/-- A bit map of 512 bytes. -/
def mapBytes (ks : List Nat) : List Byte := leBytes 512 (maskOf ks)

/-- The numbers of the items performed or failed. -/
def Op.doneItems (o : Op) : List Nat := (o.items.filter fun i => !i.away && i.st != .applied).map (·.k)

/-- The re-issue record of an operation (R372). -/
def Op.reissueBytes (o : Op) (now : Nat) : List Byte :=
  let slack := (o.slackNow now).1
  let b (x : Bool) : Nat := if x then 1 else 0
  let index := o.eng = 2
  let done := if o.opc = 0xD3 then [] else o.doneItems
  leBytes 4 (o.eng + 2 ^ 8 * o.tag + 2 ^ 16 * o.f2) ++ leBytes 4 o.opreg ++ leBytes 8 o.word.toNat ++ leBytes 8 o.aval.toNat ++
  leBytes 8 o.bval.toNat ++ leBytes 8 o.cval.toNat ++ leBytes 8 o.aux.toNat ++ leBytes 8 o.time ++ leBytes 8 o.z.toNat ++
  o.rec1.take 32 ++ leBytes 4 o.items.length ++ leBytes 4 done.length ++ leBytes 4 o.failedCount ++ leBytes 4 o.listed ++
  leBytes 4 (slack + 2 ^ 12 * b o.bg + 2 ^ 13 * b o.late) ++ leBytes 4 o.bytes ++
  leBytes 4 (672 + if index then 16 * o.items.length else 0) ++ leBytes 4 o.id ++ o.rec2.take 32 ++
  mapBytes (if index then done else []) ++
  (if index then o.items.flatMap fun i => leBytes 4 i.k ++ leBytes 4 i.idx ++ leBytes 4 i.off ++ leBytes 4 0 else [])

/-! ## Quiescing (R371) -/

/-- An operation is cancelled by the quiesce: its locks and packets go, its re-issue record stays, unless its launch is ended. -/
def cancelQuiesced (s : State) (o : Op) : State :=
  let s := (s.landItems o).writeEntries o
  let o : Op := { o with listed := o.listedCount }
  let s := s.dropPackets o.id
  let s : State := { s with locks := s.locks.filter fun x => x.op != o.id, ops := s.ops.filter fun x => x.id != o.id }
  let c := s.cohort o.cohort
  if s.endedCohort c then s
  else
    let s := s.setCohort { c with recs := c.recs ++ [o.reissueBytes s.now] }
    s.modGang o.cohort o.f2 fun g =>
      let e := g.prom.getD o.tag .free
      if e.open_ && e.eng = o.eng && e.time = o.time then
        g.setEntry o.tag { e with st := .reissue, failed := o.failedCount, listed := o.listed } else g

/-- What the quiesce makes of one operation (R371). -/
def quiesceOp (s : State) (o : Op) : State :=
  match s.op? o.id with
  | none => s
  | some o =>
    if o.eng = 1 || o.eng = 2 then if o.items.all (Item.closed o) then s.completeOp o else cancelQuiesced s o
    else if o.opc = 0xD3 then if o.items.all (Item.closed o) then s.completeOp o else cancelQuiesced s o
    else s

/-- The operations of a cohort in the order of their registration (R261, R372). -/
def State.opsOf (s : State) (cohort : Nat) : List Op := s.ops.filter fun o => o.cohort = cohort

/-- Whether the quiesce of a stopped cohort may take place: every packet already sent has been answered, and every
item that a copy has begun is finished (R371). -/
def State.quiesces (s : State) (c : Cohort) : Bool :=
  c.st = .stopped && !(s.stops c) && !((s.gangsOf c.id).any Gang.inReturn) && (s.opsOf c.id).all fun o =>
    (o.eng != 1 && o.eng != 2) || o.items.all fun i => i.st != .sent && i.st != .applied

/-- Whether everything that runs on to completion has, and every effect in flight is applied (R371, R373). -/
def State.settled (s : State) (c : Cohort) : Bool :=
  (s.opsOf c.id).all (fun o => o.eng = 6) && (s.gangsOf c.id).all fun g => g.pend.isEmpty && g.fx.isEmpty

/-- A cohort fault is reported to the host with its first fault (R366, R400); an ended launch has no report of it. -/
def State.faultEvent (s : State) (c : Cohort) : State :=
  match s.launch? c.launch, c.fault with
  | some l, some f => s.event l.part (eventBytes 1 (l.queue.getD 0) l.seq c.c f.cause f.gang f.pc f.word s.now)
  | _, _ => s

/-- Whether the quiesce of a faulted cohort is complete, and the fault is reported. -/
def State.faultsNow (s : State) (c : Cohort) : Bool := c.st = .quiesced && c.toFault && !(s.endedCohort c) && s.settled c

/-- QUIESCE (R366, R371): operations are completed or cancelled; later, a cohort that has faulted is reported once all is quiet. -/
def execQuiesce (id : Nat) (s : State) : Answer :=
  let c := s.cohort id
  if s.quiesces c then
    let s' := (s.opsOf id).foldl quiesceOp s
    .next (s'.setCohort { s'.cohort id with st := .quiesced })
  else if s.faultsNow c then
    let s' := s.setCohort { c with st := .faulted, quiescedAt := s.now }
    .next (s'.faultEvent c)
  else .next s

/-! ## The gang record (R375) -/

/-- A promise table entry (R375). -/
def PEntry.bytes (e : PEntry) : List Byte :=
  let st : Nat := match e.st with | .free => 0 | .inFlight => 1 | .completed => 2 | .reissue => 3
  leBytes 1 st ++ leBytes 1 e.eng ++ leBytes 1 (if e.reported then 1 else 0) ++ leBytes 1 0 ++ leBytes 4 e.opreg ++ leBytes 8 e.time ++
  leBytes 8 e.cur ++ recordBytes e.status e.late e.failed e.items e.listed ++ leBytes 24 0

/-- What a gang keeps of a launch barrier (R375). -/
def BarKeep.bytes (b : BarKeep) : List Byte :=
  leBytes 4 (b.gen % 2 ^ 16 + (if b.valid then 2 ^ 16 else 0) + if b.dropped then 2 ^ 17 else 0)

/-- A lane record (R375). -/
def laneBytes (g : Gang) (k : Nat) : List Byte :=
  let l := g.lane k
  let slot : Nat := if g.s0.live && g.s0.mask.testBit k then 1 else if g.s1.live && g.s1.mask.testBit k then 2 else 0
  l.v.flatMap (fun w => leBytes 4 w.toNat) ++ leBytes 2 l.p.toNat ++ leBytes 1 slot ++ leBytes 5 0 ++ leBytes 8 l.z.toNat ++
  l.o.flatMap (fun w => leBytes 4 w.toNat) ++ l.oh.flatMap (fun w => leBytes 4 w.toNat) ++ l.l.flatMap fun w => leBytes 8 w.toNat

/-- The gang record of the issuing gang (R375); its slots as at its stop, with the STALL countdown left then. -/
def State.gangRecord (s : State) : List Byte :=
  let g := s.g
  g.s.flatMap (fun w => leBytes 8 w.toNat) ++ g.m.flatMap (fun w => leBytes 32 w.toNat) ++ g.k.flatMap (fun w => leBytes 8 w.toNat) ++
  leBytes 8 (s.sysReg 1) ++ leBytes 8 (s.sysReg 2) ++ leBytes 8 (s.sysReg 3) ++ leBytes 8 (s.sysReg 5) ++ leBytes 8 (s.sysReg 6) ++
  leBytes 8 g.tcause ++ leBytes 8 (g.lastTag.getD 255) ++ leBytes 8 g.f2 ++
  frameBytes s (if g.mode then 2 ^ 16 else 0) g.stopAt ⟨.illegalOpcode, 0, 0⟩ 0 0 0xFFFFFFFF 0 0 0 s.now ++
  (List.range 16).flatMap (fun i => (g.bars.getD i .none).bytes) ++ leBytes 64 0 ++
  (List.range 256).flatMap (fun t => (g.prom.getD t .free).bytes) ++ (List.range g.size).flatMap (laneBytes g)

/-- The length of a gang record (R375). -/
def Kern.gangLen (k : Kern) : Nat := 17664 + 2 ^ k.width 0 * 2 ^ k.width 1 * (4 * k.regs + 144)

/-! ## The image (R374) -/

/-- Bytes of the matrix section (R374). -/
def matLen : Nat := 4 * 655360 + 4 * 2048 + 2 * (128 * blockLen + 128) + 2 * 32768

/-- A sparse memory moved to an address. -/
def Memory.moved (m : Memory) (a : Nat) : Memory := m.map fun c => (c.1 + a, c.2)

/-- The tag byte of a B block (R309, R374). -/
def BTag.byte : BTag → Nat
  | .plain => 0
  | .planes k => 1 + 16 * (k - 1)
  | .sparse p => 2 + p

/-- The tag of a byte; none when it breaks the layout (R374). -/
def BTag.ofByte (x : Nat) : Option BTag :=
  if x = 0 then some .plain else if x % 16 = 1 && x < 128 then some (.planes (x / 16 + 1))
  else if 2 ≤ x && x ≤ 4 then some (.sparse (x - 2)) else none

/-- The matrix section of a pair from address a on (R374). -/
def Pair.matCells (p : Pair) (a : Nat) : Memory :=
  let nan := a + 4 * 655360
  let core (i : Nat) : Nat := nan + 4 * 2048 + i * (128 * blockLen + 128)
  let tags (i : Nat) : List Byte := (p.tags.getD i []).map fun t => BitVec.ofNat 8 t.byte
  (List.range 4).flatMap (fun t => (p.acc.getD t []).moved (a + 655360 * t)) ++
  (List.range 4).flatMap (fun t => (p.nan.getD t []).moved (nan + 2048 * t)) ++
  (List.range 2).flatMap (fun i => (p.bbuf.getD i []).moved (core i) ++ cellsOf (core i + 128 * blockLen) (tags i)) ++ p.sct.moved (core 2)

/-- The scratchpad section of a cohort's core from address a on: lane after lane (R374). -/
def padCells (m : Memory) (pb cs a : Nat) : Memory :=
  (m.filter fun c => pb ≤ offOf c.1 && offOf c.1 < pb + cs).map fun c => (a + laneOf c.1 * cs + (offOf c.1 - pb), c.2)

/-- The channel section (R374): the counters of the channels whose consumer is the cohort. -/
def chanBytes (k : Kern) (c : Cohort) : List Byte :=
  (List.range 16).flatMap fun i => match k.chans[i]?, c.chans[i]? with
    | some x, some n => if x.cons = c.c % 2 ^ k.width 3 then leBytes 4 n.sent ++ leBytes 4 n.landed ++ leBytes 4 n.recv ++ leBytes 4 n.rel
        else leBytes 16 0
    | _, _ => leBytes 16 0

/-- The Benes section (R374). -/
def benesBytes (c : Cohort) : List Byte :=
  (List.range 8).flatMap fun i => (List.range 256).map fun j => BitVec.ofNat 8 ((c.bc.getD i idPerm).getD j j)

/-- The gangs of a cohort that have a gang record, in increasing number (R374). -/
def State.savedGangs (s : State) (cohort : Nat) : List Gang :=
  (List.range 32).filterMap fun f2 => (s.gangsOf cohort).find? fun g => g.f2 = f2 && g.st != .exited

/-- Offsets of the parts of an image: scratchpad, matrix, records, channels, Benes, and its end (R374). -/
def imageParts (k : Kern) (ngang cs recLen : Nat) : Nat × Nat × Nat × Nat × Nat × Nat :=
  let so := 256 + ngang * k.gangLen
  let mo := so + 512 * cs
  let ro := mo + if k.mat then matLen else 0
  let co := ro + recLen
  (so, mo, ro, co, co + 256, co + 256 + 2048)

/-- The image of a cohort as cells from address a on (R374). -/
def State.imageCells (s : State) (c : Cohort) (l : Launch) (a : Nat) : Memory :=
  let k := l.kern
  let gs := s.savedGangs c.id
  let recLen := (c.recs.map List.length).sum
  let (so, mo, ro, co, bo, _) := imageParts k gs.length c.cs recLen
  let b (x : Bool) (n : Nat) : Nat := if x then n else 0
  let fault : List Byte := match c.toFault, c.fault with
    | true, some f => leBytes 4 f.cause ++ leBytes 4 f.gang ++ leBytes 4 f.pc ++ leBytes 4 0 ++ leBytes 8 f.word.toNat ++ leBytes 8 0
    | _, _ => leBytes 32 0
  let head := leBytes 4 1 ++ leBytes 4 gs.length ++ leBytes 8 l.stamp.toNat ++ leBytes 4 c.c ++ leBytes 4 c.cb ++ leBytes 4 c.cs ++
    leBytes 4 (pairId c.pair 0 / 2) ++ leBytes 8 s.now ++ leBytes 4 c.recs.length ++
    leBytes 4 (b k.mat 1 + b c.toFault 2 + b (k.width 3 != 0) 4) ++
    leBytes 8 256 ++ leBytes 8 so ++ leBytes 8 (if k.mat then mo else 0) ++ leBytes 8 ro ++ leBytes 8 co ++ fault ++ leBytes 8 bo
  let gangs := gs.flatMap fun g => ({ s with g := g } : State).gangRecord
  cellsOf a head ++ cellsOf (a + 256) gangs ++
  padCells (s.pad (coreOf c.pair 0)) c.pb c.cs (a + so) ++ padCells (s.pad (coreOf c.pair 1)) c.pb c.cs (a + so + 256 * c.cs) ++
  (if k.mat then (s.pair c.pair).matCells (a + mo) else []) ++
  cellsOf (a + ro) c.recs.flatten ++ cellsOf (a + co) (chanBytes k c) ++ cellsOf (a + bo) (benesBytes c)

/-- The offsets and lengths of the parts of matrix state within the matrix section (R316, R374). -/
def MatPart.place : MatPart → Nat × Nat
  | .acc t row => (655360 * t + 5120 * row, 5120)
  | .block i n => (4 * 655360 + 4 * 2048 + i * (128 * blockLen + 128) + blockLen * n, blockLen)
  | .score row => (4 * 655360 + 4 * 2048 + 2 * (128 * blockLen + 128) + 512 * row, 512)

/-- The lines of a cohort's image at its place that hold poisoned scratchpad words or poisoned matrix state: poison goes with the data into
the image (R211, R316, R374, log 31). -/
def State.imagePoison (s : State) (c : Cohort) (l : Launch) : List Nat :=
  let (so, mo, _) := imageParts l.kern (s.savedGangs c.id).length c.cs (c.recs.map List.length).sum
  let words := (s.spoison.filter fun p => p.1 / 2 = c.pair && c.pb ≤ offOf p.2 && offOf p.2 < c.pb + c.cs).map fun p =>
    (so + 256 * c.cs * (p.1 % 2) + laneOf p.2 * c.cs + (offOf p.2 - c.pb), 4)
  let parts := if l.kern.mat then (s.pair c.pair).psn.map fun x => (mo + x.place.1, x.place.2) else []
  ((words ++ parts).flatMap fun x =>
    let first := (c.image + x.1) / 256
    (List.range ((c.image + x.1 + x.2 - 1) / 256 - first + 1)).map (first + ·)).eraseDups

/-- Memory with the n bytes from a on replaced by cells that lie there. -/
def Memory.replace (m : Memory) (a n : Nat) (cells : Memory) : Memory :=
  cells.foldl (fun m c => m.write c.1 c.2) (m.filter fun c => !(a ≤ c.1 && c.1 < a + n))

/-- The most room that the image of a cohort may take, its records counted before the stop (R372, R374). -/
def State.imageRoom (s : State) (c : Cohort) (l : Launch) : Nat :=
  let recs := (c.recs.map List.length).sum + ((s.opsOf c.id).map fun o => 672 + 16 * o.items.length).sum
  (imageParts l.kern (s.savedGangs c.id).length c.cs recs).2.2.2.2.2

/-! ## Completion of an operation (R287, R371) -/

/-- A promise table entry read from a gang record (R375). -/
def PEntry.ofBytes (b : List Byte) : PEntry :=
  { st := match le b 0 1 with | 1 => .inFlight | 2 => .completed | 3 => .reissue | _ => .free
    eng := le b 1 1, time := le b 8 8 % 2 ^ 48, cur := le b 16 8 % 2 ^ 48, reported := (le b 2 1).testBit 0, opreg := le b 4 4
    status := le b 24 1, late := (le b 25 1).testBit 0, failed := le b 28 4, items := le b 32 4, listed := le b 36 4 }

/-- Where the promise table entry of a saved gang stands in its cohort's image (R371, R374, R375). -/
def State.savedEntry (s : State) (c : Cohort) (k : Kern) (f2 tag : Nat) : Option Nat :=
  let fs := (c.hid.filter fun h => !h.gone).map (·.f2)
  let i := (fs.filter fun f => f < f2).length
  if fs.contains f2 then some (c.image + leNat (s.mem.readN (c.image + 48) 8) + i * k.gangLen + 1280 + 64 * tag) else none

/-- The completion of a `launch` of a saved cohort goes to the saved promise entry (R371). -/
def State.completeSaved (s : State) (o : Op) (c : Cohort) : State :=
  let s' := s.endOp o o.status o.failedCount o.listedCount
  match (s.launch? c.launch).bind fun l => s.savedEntry c l.kern o.f2 o.tag with
  | none => s'
  | some a =>
    let e := PEntry.ofBytes (s.mem.readN a 64)
    if e.st = .inFlight && e.eng = o.eng && e.time = o.time then
      let e : PEntry := { e with st := .completed, status := o.status, late := o.late, failed := o.failedCount, items := o.items.length }
      { s' with mem := s'.mem.writeN a e.bytes }
    else s'

/-- OPERATION_COMPLETION (R287). -/
def execOperationCompletion (id : Nat) (s : State) : Answer :=
  match s.op? id with
  | none => .next s
  | some o =>
    if !(s.opDone o) then .next s
    else
      let c := s.cohort o.cohort
      .next (if c.st = .saved then s.completeSaved o c else s.completeOp o)

/-! ## Room in the shadow band (R399, R404) -/

/-- The images that stand or will stand in the shadow band of a partition: address and length. -/
def State.shadowUsed (s : State) (n : Nat) : List (Nat × Nat) :=
  let mine (c : Cohort) : Bool := c.imageLen != 0 && ((s.launch? c.launch).map (·.part)) = some n
  ((s.cohorts.filter mine) ++ ((s.part n).contexts.flatMap fun x => x.2.cohorts)).map fun c => (c.image, c.imageLen)

/-- The first free place of n bytes in a shadow band (log 24). -/
def shadowPlace (base len : Nat) (used : List (Nat × Nat)) (n : Nat) : Option Nat :=
  ((base :: used.map fun u => (u.1 + u.2 + 255) / 256 * 256).filter fun a =>
    base ≤ a && a + n ≤ base + len && used.all fun u => a + n ≤ u.1 || u.1 + u.2 ≤ a).head?

/-- The cohorts that are saved with a cohort: its whole cluster (R369). -/
def State.clusterOf (s : State) (c : Cohort) : List Cohort :=
  let w := ((s.launch? c.launch).map fun l => l.kern.width 3).getD 0
  s.cohorts.filter fun d => d.launch = c.launch && d.c / 2 ^ w = c.c / 2 ^ w

/-- A save of each of a list of cohorts is asked for; none when the shadow band has no room for all images (R399). A cohort that is being
saved, or is saved, is not pre-empted again (R384). -/
def State.askSave (n : Nat) (yieldFor : Option Nat) : List Cohort → State → Option State
  | [], s => some s
  | c :: cs, s =>
    let d := s.cohort c.id
    if d.saveReq || d.st = .saved then State.askSave n yieldFor cs s
    else match s.launch? d.launch with
      | none => State.askSave n yieldFor cs s
      | some l =>
        match shadowPlace (s.part n).shadow (s.part n).shlen (s.shadowUsed n) (s.imageRoom d l) with
        | none => none
        | some a =>
          State.askSave n yieldFor cs (s.setCohort { d with saveReq := true, image := a, imageLen := s.imageRoom d l, yieldFor := yieldFor })

/-! ## The saved report (R373, R374) -/

/-- Whether the save of a cohort may be reported complete (R373); a cluster is saved as one unit (R369). -/
def State.saves (s : State) (c : Cohort) : Bool :=
  c.saveReq && c.st != .saved && !(s.endedCohort c) && (s.clusterOf c).all fun d =>
    d.st = .saved || (d.saveReq && ((d.st = .quiesced && !d.toFault) || d.st = .faulted) && s.settled d)

/-- What a restore needs of a gang beside its image. -/
def Gang.hid (g : Gang) : Hid :=
  { f2 := g.f2, core := g.core, ox := g.ox, oy := g.oy, hi0 := g.hi0, hi1 := g.hi1,
    exited := maskOf ((List.range g.size).filter fun k => (g.lane k).exited), lastSlot := g.lastSlot, hstack := g.hstack,
    gone := g.st = .exited }

/-- The gangs of a cohort leave the machine. -/
def State.dropGangs (s : State) (cohort : Nat) : State :=
  let rest := s.gangs.filter fun g => g.cohort != cohort
  match rest with
  | [] => { s with g := .idle, others := [] }
  | g :: gs => { s with g := g, others := gs }

/-- The pair of a cohort loses it: the matrix state is held by it no more (R304). -/
def State.leavePair (s : State) (c : Cohort) : State :=
  let p := s.pair c.pair
  s.setPair c.pair { p with holder := if p.holder = some c.id then none else p.holder }

/-- The image of one cohort is written and its pair is freed (R373, R374). -/
def State.saveCohort (s : State) (c : Cohort) : State :=
  match s.launch? c.launch with
  | none => s
  | some l =>
    let cells := s.imageCells c l c.image
    let hid := (List.range 32).filterMap fun f2 => ((s.gangsOf c.id).find? fun g => g.f2 = f2).map Gang.hid
    let kept := s.poison.filter fun x => !(c.image ≤ x * 256 && (x + 1) * 256 ≤ c.image + c.imageLen)
    let s : State := { s with
      mem := s.mem.replace c.image c.imageLen cells
      poison := kept ++ (s.imagePoison c l).filter fun x => !(kept.contains x) }
    let s := s.leavePair c
    let s := s.setCohort { c with st := .saved, saveReq := false, recs := [], hid := hid }
    (s.dropGangs c.id).event l.part (eventBytes 2 (l.queue.getD 0) l.seq c.c 0 0 0 0 s.now)

end Sys2Proof.Machine
end

