-- ==== Sys2Proof/Machine/Restore.lean ====
section
/-! DEFINITION. Restoring a saved cohort and resuming a faulted one (spec/18 R366, R376 to R379). -/
namespace Sys2Proof.Machine

open Sys2Proof

/-! ## An operation from its record (R372, R378) -/

/-- Whether a re-issue record keeps its layout, for a launch of 2^w2 gangs (R372). -/
def recordOk (w2 : Nat) (r : List Byte) : Bool :=
  let eng := le r 0 1
  let opc := le r 15 1
  le r 2 2 < 2 ^ w2 && le r 2 2 < 32 && le r 112 4 < 2 ^ 14 &&
  ((eng = 1 && opc = 0xD4) || (eng = 2 && 0xD5 ≤ opc && opc ≤ 0xD7) || (eng = 3 && opc = 0xD3)) &&
  le r 120 4 = 672 + (if eng = 2 then 16 * le r 96 4 else 0) && r.length = le r 120 4

/-- The operation of a record without its items; it is issued now by the gang s.g. -/
def State.opOfRecord (s : State) (r : List Byte) : Op :=
  { s.opBase 0 (le r 0 1) ⟨⟨false, 0, 0, false⟩, 0, 0, 0, 0, 0, .none⟩ with
    tag := le r 1 1, f2 := le r 2 1 % 32, opreg := le r 4 4, word := BitVec.ofNat 64 (le r 8 8), aval := BitVec.ofNat 64 (le r 16 8)
    bval := BitVec.ofNat 64 (le r 24 8), cval := BitVec.ofNat 64 (le r 32 8), aux := BitVec.ofNat 64 (le r 40 8), time := le r 48 8 % 2 ^ 48
    z := BitVec.ofNat 64 (le r 56 8), rec1 := (r.drop 64).take 32, failedBefore := le r 104 4, listed := le r 108 4
    slack := bits (le r 112 4) 0 12, bg := (le r 112 4).testBit 12, late := (le r 112 4).testBit 13, bytes := le r 116 4
    rec2 := (r.drop 128).take 32, slot := 0, deps := [] }

/-- The items of an operation of the index engine, as its record lists them; sources of `sct` are read anew. -/
def State.indexItems (s : State) (o : Op) (r : List Byte) : List Item :=
  let t := Tens.ofBytes o.rec1
  let done := leNat ((r.drop 160).take 512)
  (List.range (le r 96 4)).map fun n =>
    let b := 672 + 16 * n
    let k := le r b 4
    let off := le r (b + 8) 4
    { k := k, idx := le r (b + 4) 4, off := off, addr := t.elemAddr (le r (b + 4) 4)
      data := if o.opc = 0xD6 then s.laneRead (s.g.phys k) off t.eb else []
      psn := if o.opc = 0xD6 then s.sidePoison k off t.eb else none
      st := if done.testBit k then .done
        else if le r (b + 4) 4 ≥ t.count then .failed codeBounds (t.elemAddr (le r (b + 4) 4)) else .todo }

/-- The items that a record leaves (R378). -/
def State.recordItems (s : State) (o : Op) (r : List Byte) : List Item :=
  match o.eng with
  | 1 => ((copyItems (s.copyUnits o)).zipIdx).map fun p => if p.2 < le r 100 4 then { p.1 with st := .done } else p.1
  | 2 => s.indexItems o r
  | _ => [{ k := 0, idx := 0, off := o.cval.toNat, addr := o.aval.toNat, data := [], st := .todo }]

/-- The locks of an operation that is re-issued by the gang s.g under number s.nextOp (R257, R378). -/
def State.recordLocks (s : State) (o : Op) : List Lock :=
  let t := Tens.ofBytes o.rec1
  let own : List Lock := match o.eng with
    | 1 =>
      match o.form with
      | 0 => [s.planeLock (Desc.ofWord o.aval) true]
      | 1 => s.padLock true o.aval.toNat (blockLen * (t.extx / 32))
      | 2 => [s.planeLock (Desc.ofWord o.bval) false]
      | 3 => [s.newLock (coreOf s.coh.pair ((s.g.core + o.aval.toNat / 128) % 2)) true (.blocks (o.aval.toNat % 128) (t.exty / 32))]
      | 4 => ssLock s o o.aval true o.cval.toNat ++ ssLock s o o.bval false o.cval.toNat
      | _ => []
    | 2 =>
      let off (k : Nat) : Nat := ((o.items.find? fun i => i.k = k).map (·.off)).getD 0
      if o.opc = 0xD7 then [] else s.sideLock (o.items.map (·.k)) off t.eb (o.opc = 0xD5)
    | _ => s.padLock true o.cval.toNat 8
  own ++ s.auxLock o.aux

/-- The estimate E over the items not yet done (R251, R378). -/
def State.restEst (s : State) (o : Op) : Nat :=
  if o.eng = 1 then
    let us := s.copyUnits o
    let todo := ((blocksOf us).zipIdx).filterMap fun p => if (o.items[p.2]?).map (·.st) = some .todo then some p.1 else none
    400 + (((us.filter fun u => todo.contains u.dst.block).map (·.len)).sum + 63) / 64
  else 400 + 2 * (o.items.filter fun i => i.st = .todo).length

/-- The later of two promised times (R249). -/
def laterTime (a b : Nat) : Nat := if (b + 2 ^ 48 - a % 2 ^ 48) % 2 ^ 48 < 2 ^ 47 then b else a

/-- A re-issued operation's promise table entry: in flight again, with the later of its times (R378). -/
def Gang.redate (g : Gang) (o : Op) (est now : Nat) : Gang :=
  let e := g.prom.getD o.tag .free
  if e.st = .reissue && e.eng = o.eng && e.time = o.time then
    let t := if timeFinite e.cur then laterTime e.cur (fixTime (now + est + 4 * o.slack)) else e.cur
    g.setEntry o.tag { e with st := .inFlight, cur := t }
  else g

/-- One record is re-issued (R378, R379): it registers its locks, in force before any gang issues, then starts. -/
def reissueOne (s : State) (cohort : Nat) (r : List Byte) : State :=
  match s.gang? cohort (le r 2 1 % 32) with
  | none => s
  | some g =>
    let sg : State := { s with g := g }
    let o := sg.opOfRecord r
    let o : Op := { o with items := sg.recordItems o r }
    let est := sg.restEst o
    let s' : State := { s with ops := s.ops ++ [o], locks := s.locks ++ (sg.recordLocks o).map fun x => { x with since := 0 }, nextOp := s.nextOp + 1 }
    let s' := s'.setOp { o with waited := !(s'.lockWaits o.id) }
    s'.modGang cohort o.f2 fun g => g.redate o est s.now

/-- Every other entry in flight moves on by the time the cohort stood still (R378). -/
def Gang.shiftTimes (g : Gang) (by_ : Nat) : Gang :=
  { g with prom := g.prom.map fun e =>
      if e.st = .inFlight && timeFinite e.cur then { e with cur := fixTime (e.cur + by_) } else e }

/-- Re-issue records in increasing SEQ, equal ones as they stand (R372, R378). -/
def insertRec (r : List Byte) : List (List Byte) → List (List Byte)
  | [] => [r]
  | x :: xs => if le r 124 4 < le x 124 4 then r :: x :: xs else x :: insertRec r xs
def recsInOrder (recs : List (List Byte)) : List (List Byte) := recs.foldl (fun rs r => insertRec r rs) []

/-- Steps 2 and 3 of R378: saved is the time since which the promises stood still, modulo 2^48. -/
def State.reissue (s : State) (cohort saved : Nat) (recs : List (List Byte)) : State :=
  (recsInOrder recs).foldl (fun s r => reissueOne s cohort r)
    (s.modGangs cohort fun g => g.shiftTimes ((s.now % 2 ^ 48 + 2 ^ 48 - saved % 2 ^ 48) % 2 ^ 48))

/-- A gang of a cohort that runs again starts Ready, or Pending where its core's active set is full (R352, R378). -/
def State.wakeGangs (s : State) (cohort : Nat) : State :=
  (List.range 32).foldl (fun s f2 =>
    match s.gang? cohort f2 with
    | none => s
    | some g =>
      if g.st != .saved then s
      else
        let room := (s.activeOn (s.gangCore g)).length < Config.activeSet
        let cyc := (s.pair (s.cohort cohort).pair).cyc
        s.modGang cohort f2 fun g => if room then { g with st := .active, activeAt := cyc, eligAt := none }
          else { g with st := .pending, eligAt := some cyc }) s

/-- A faulted cohort resumes in place (R366). -/
def State.resumeHere (s : State) (c : Cohort) : State :=
  let s := s.setCohort { c with st := .resident, fault := none, toFault := false, recs := [] }
  (s.reissue c.id c.quiescedAt c.recs).wakeGangs c.id

/-! ## Reading an image (R374, R375) -/

/-- n little-endian bytes of a cohort's image. -/
def State.img (s : State) (c : Cohort) (off n : Nat) : Nat := leNat (s.mem.readN (c.image + off) n)

/-- The re-issue records of an image: n of them from an offset on. -/
def State.imgRecs (s : State) (c : Cohort) : Nat → Nat → List (List Byte)
  | _, 0 => []
  | off, n + 1 =>
    let len := s.img c (off + 120) 4
    s.mem.readN (c.image + off) len :: s.imgRecs c (off + len) n

/-- Whether poison lies in a part of an image other than its scratchpad and matrix sections, in a line that neither shares (R211, log 31). -/
def State.imageSpoiled (s : State) (c : Cohort) (k : Kern) (recs : List (List Byte)) : Bool :=
  let (so, _, ro, _, _, len) := imageParts k (s.img c 4 4) k.cs (recs.map List.length).sum
  s.poison.any fun x => c.image ≤ 256 * x && 256 * (x + 1) ≤ c.image + len && (256 * (x + 1) ≤ c.image + so || c.image + ro ≤ 256 * x)

/-- Whether the header, the records and the matrix tags of an image keep their layouts (R309, R372, R374, R378). -/
def State.imageOk (s : State) (c : Cohort) (k : Kern) : Bool :=
  let recs := s.imgRecs c (s.img c 72 8) (s.img c 40 4)
  let tag (i j : Nat) : Option BTag :=
    BTag.ofByte (s.img c (s.img c 64 8 + 4 * 655360 + 4 * 2048 + i * (128 * blockLen + 128) + 128 * blockLen + j) 1)
  s.img c 0 4 = 1 && s.img c 4 4 ≤ 2 ^ k.width 2 && s.img c 24 4 = k.cs && s.img c 20 4 % 256 = 0 && s.img c 20 4 + k.cs ≤ 8192 &&
  (s.img c 44 4).testBit 0 = k.mat && recs.all (recordOk (k.width 2)) && !(s.imageSpoiled c k recs) &&
  (!k.mat || (List.range 2).all fun i => (List.range 128).all fun j => (tag i j).isSome)

/-- Cells of memory from address a on, n of them, moved to 0. -/
def Memory.section (m : Memory) (a n : Nat) : Memory := (m.filter fun c => a ≤ c.1 && c.1 < a + n).map fun c => (c.1 - a, c.2)

/-- Every part of a pair's matrix state that poison can mark (R316). -/
def MatPart.all : List MatPart :=
  (List.range 4).flatMap (fun t => (List.range 128).map (.acc t)) ++ (List.range 2).flatMap (fun i => (List.range 128).map (.block i)) ++
  (List.range 128).map .score

/-- The parts of the matrix section at address a that lie in poisoned lines (R211, R316). -/
def State.imgPsn (s : State) (a : Nat) : List MatPart :=
  if s.poison.isEmpty then [] else MatPart.all.filter fun x => s.linePoison (a + x.place.1) x.place.2

/-- The matrix state that an image holds (R374). -/
def State.imgMatrix (s : State) (c : Cohort) (p : Pair) : Pair :=
  let a := c.image + s.img c 64 8
  let nan := a + 4 * 655360
  let core (i : Nat) : Nat := nan + 4 * 2048 + i * (128 * blockLen + 128)
  { p with
    acc := (List.range 4).map fun t => s.mem.section (a + 655360 * t) 655360
    nan := (List.range 4).map fun t => s.mem.section (nan + 2048 * t) 2048
    bbuf := (List.range 2).map fun i => s.mem.section (core i) (128 * blockLen)
    tags := (List.range 2).map fun i => (s.mem.readN (core i + 128 * blockLen) 128).map fun b => (BTag.ofByte b.toNat).getD .plain
    psn := s.imgPsn a
    sct := s.mem.section (core 2) 65536 }

/-- The scratchpad section of an image goes to a core (R374, R377); words in poisoned lines are poisoned (R211). -/
def State.imgPad (s : State) (c : Cohort) (i : Nat) : State :=
  let core := coreOf c.pair i
  let a := c.image + s.img c 56 8 + i * 256 * c.cs
  let cells := s.mem.section a (256 * c.cs)
  let psn := (s.poison.flatMap fun x => (List.range 64).map fun j => 256 * x + 4 * j).filter fun b => a ≤ b && b < a + 256 * c.cs
  let s := s.setPad core (cells.foldl (fun m x => m.write (linOf (x.1 / c.cs) (c.pb + x.1 % c.cs)) x.2) (s.pad core))
  { s with spoison := s.spoison ++ psn.map fun b => (core, linOf ((b - a) / c.cs) (c.pb + (b - a) % c.cs)) }

/-- A lane from its record (R375); it has exited if it had and the record names no slot for it, or as R365 takes it. -/
def laneOfBytes (regs : Nat) (r : List Byte) (exited : Bool) : Lane :=
  let b := 4 * regs
  let words (o n w : Nat) : List Nat := (List.range n).map fun i => le r (o + w * i) w
  { v := (words 0 regs 4).map (BitVec.ofNat 32), p := BitVec.ofNat 16 (le r b 2) ||| 1, z := BitVec.ofNat 64 (le r (b + 8) 8)
    o := (words (b + 16) 8 4).map (BitVec.ofNat 32), oh := (words (b + 48) 8 4).map (BitVec.ofNat 32)
    l := (words (b + 80) 8 8).map (BitVec.ofNat 64), exited := exited }

/-- The gang of a gang record, at its stop point in core cycle t; its slots issue no sooner than in cycle first (R375, R378, R427, log 7). -/
def gangOfRecord (k : Kern) (cohort : Nat) (h : Hid) (r : List Byte) (t first : Nat) : Gang :=
  let words (o n w : Nat) : List Nat := (List.range n).map fun i => le r (o + w * i) w
  let size := 2 ^ k.width 0 * 2 ^ k.width 1
  let lane (i : Nat) : List Byte := r.drop (17664 + i * (4 * k.regs + 144))
  let slotOf (i : Nat) : Nat := le (lane i) (4 * k.regs + 2) 1 % 4
  let inSlot (n : Nat) : Nat := maskOf ((List.range size).filter fun i => slotOf i = n)
  let x0 := Slot.ofRecord ((r.drop 920).take 16) first
  let x1 := Slot.ofRecord ((r.drop 936).take 16) first
  let keep (x : Slot) (m : Nat) : Slot := if x.live && m != 0 then { x with mask := m } else .freed first
  let slack := le r 840 8 % 16
  let bar (n : Nat) : BarKeep := { gen := n % 2 ^ 16, valid := n.testBit 16, dropped := n.testBit 17 }
  { Gang.idle with
    cohort := cohort, f2 := h.f2, core := h.core, ox := h.ox, oy := h.oy, kn := k
    lanes := (List.range size).map fun i => laneOfBytes k.regs (lane i) (h.exited.testBit i && slotOf i = 0)
    s := (words 0 64 8).map (BitVec.ofNat 64), m := (words 512 8 32).map (BitVec.ofNat 256), k := (words 768 8 8).map (BitVec.ofNat 64)
    s0 := keep x0 (inSlot 1), s1 := { keep x1 (inSlot 2) with tid := 1 }, lastSlot := h.lastSlot, nextTid := 3
    kept := { tid := 0, other := { tid := 2, acq := { ops := [], nums := [] } }, first := 1 }
    mode := (le r 896 4).testBit 16, tcause := le r 872 8 % 256
    chk := (le r 832 8).testBit 0, itemen := (le r 832 8).testBit 1, lateen := (le r 832 8).testBit 2
    slackdef := if slack = 0 || slack = 15 then k.slack else slack, late := le r 848 8 % 2 ^ 32
    cycBase := (t : Int) - (le r 856 8 : Nat), issues := le r 864 8, regpc := le r 952 4, regcnt := le r 956 4
    basepc := le r 952 4, basecnt := le r 956 4, without0 := (le r 952 4, le r 956 4), without1 := (le r 952 4, le r 956 4)
    stackd := min (le r 964 4) k.divd, hstack := h.hstack, hi0 := h.hi0, hi1 := h.hi1
    prom := (List.range 256).map fun i => PEntry.ofBytes (r.drop (1280 + 64 * i))
    lastTag := some (le r 880 8 % 256), bars := (words 1152 16 4).map bar
    st := .saved }

/-- A gang that has exited, as far as its operations still need it (R262). -/
def goneGang (k : Kern) (cohort : Nat) (h : Hid) : Gang :=
  { Gang.idle with cohort := cohort, f2 := h.f2, core := h.core, ox := h.ox, oy := h.oy, kn := k, st := .exited }

/-- In normal mode a lane in no slot and in no stack entry is exited (R365). -/
def State.dropLost (s : State) (g : Gang) : Gang :=
  if g.mode then g
  else
    let onStack := maskOf ((List.range g.stackd).flatMap fun e => ({ s with g := g } : State).stackMembers e)
    let held := g.s0.mask ||| g.s1.mask ||| onStack
    { g with lanes := g.lanes.zipIdx.map fun p => if held.testBit p.2 then p.1 else { p.1 with exited := true } }

/-! ## Restore (R376 to R378) -/

/-- The places of the gangs of a saved cohort on a pair: core and origin as they were (R376). -/
def savedSpots (k : Kern) (c : Cohort) (pair : Nat) : List Spot :=
  let ex := min (2 ^ k.width 0) 16
  let ey := min (2 ^ k.width 1) 16
  let passes := (2 ^ k.width 0 / ex) * (2 ^ k.width 1 / ey)
  (c.hid.filter fun h => !h.gone).map fun h =>
    { core := coreOf pair h.core, ox := h.ox, oy := h.oy, ex := ex, ey := ey, regs := k.regs * passes }

/-- Whether places fit one after another. -/
def spotsFit : List Spot → List Spot → Bool
  | _, [] => true
  | xs, y :: ys => spotFits xs y && spotsFit (y :: xs) ys

/-- The base at which a saved cohort fits a pair: the saved CB where it is free (R351, R376). -/
def State.fitSaved (s : State) (k : Kern) (c : Cohort) (pair : Nat) : Option Nat :=
  if !(s.matFree pair k.mat) || !(spotsFit (s.spotsOn pair) (savedSpots k c pair)) then none
  else match s.freeBases pair k.cs with
    | [] => none
    | b :: bs => some (if (b :: bs).contains c.cb then c.cb else (b :: bs).getD (Config.free s.draws (pair + 40) % (bs.length + 1)) b)

/-- The bases of the cohorts of a cluster on the pairs from p on. -/
def State.fitSavedAll (s : State) (k : Kern) (p : Nat) : List Cohort → Option (List Nat)
  | [] => some []
  | c :: cs =>
    match s.fitSaved k c (p + c.c % 2 ^ k.width 3), s.fitSavedAll k p cs with
    | some b, some bs => some (b :: bs)
    | _, _ => none

/-- A block of pairs for a saved cluster: a free choice among those that fit (R351, R352, R376). -/
def State.fitUnit (s : State) (part : Nat) (k : Kern) (cs : List Cohort) : Option (Nat × List Nat) :=
  match ((s.part part).blocks (k.width 3)).filterMap fun p => (s.fitSavedAll k p cs).map fun bs => (p, bs) with
  | [] => none
  | x :: xs => some ((x :: xs).getD (Config.free s.draws 31 % (xs.length + 1)) x)

/-- A saved cohort stands on a pair at a base again, with all that its image holds; no record is re-issued yet (R378). -/
def State.placeSaved (s : State) (l : Launch) (c : Cohort) (pair base : Nat) : State :=
  let k := l.kern
  let goff := s.img c 48 8
  let boff := s.img c 120 8
  let bc := (List.range 8).map fun i => (s.mem.readN (c.image + boff + 256 * i) 256).map (·.toNat)
  let chans := (c.chans.zipIdx).map fun x =>
    let a := s.img c 80 8 + 16 * x.2
    let own : Bool := match k.chans[x.2]? with | some y => y.cons = c.c % 2 ^ k.width 3 | none => false
    if own then
      { sent := s.img c a 4, landed := s.img c (a + 4) 4, recv := s.img c (a + 8) 4, rel := s.img c (a + 12) 4 }
    else x.1
  let d : Cohort := { c with
    pair := pair, cb := s.img c 20 4, pb := base, cs := k.cs, st := .resident, chans := chans, bc := bc, saveReq := false, fault := none
    toFault := false, image := 0, imageLen := 0, hid := [], yieldFor := none, noRoom := false }
  let t := (s.pair pair).cyc
  let p := (s.pair pair).passTo k.mat c.id l.id
  let p := if k.mat then s.imgMatrix c p else p
  let s1 := ((s.setPair pair p).setCohort d).clearAlloc d
  let place : Cohort := { c with pair := pair, pb := base, cs := k.cs }
  let s1 := (s1.imgPad place 0).imgPad place 1
  let here := c.hid.filter fun h => !h.gone
  let record (i : Nat) : List Byte := s.mem.readN (c.image + goff + i * k.gangLen) k.gangLen
  let n := min (s.img c 4 4) here.length
  let named := (List.range n).map fun i => le (record i) 888 8
  let gs := (here.take n).zipIdx.map fun x =>
    let f2 := named.getD x.2 0
    -- an edited gang number counts where it is one of the cohort's and no other record has it (log 50)
    let h := if f2 < 2 ^ k.width 2 && (named.filter (· = f2)).length = 1 then { x.1 with f2 := f2 } else x.1
    s1.dropLost (gangOfRecord k c.id h (record x.2) t (t + Config.free s.draws (40000 + c.id)))
  let gone := (c.hid.filter fun h => h.gone).map (goneGang k c.id)
  { s1 with others := s1.others ++ gs ++ gone }

/-- The records of a saved cohort that stands on its pair again are re-issued; c is the cohort as it was saved (R378). -/
def State.reissueSaved (s : State) (c : Cohort) : State := s.reissue c.id (s.img c 32 8) (s.imgRecs c (s.img c 72 8) (s.img c 40 4))

/-- A restore that refuses an image reports the cohort faulted; it waits for RESUME (R378). -/
def State.refuseImage (s : State) (l : Launch) (c : Cohort) : State :=
  let s := s.setCohort { c with toFault := true, fault := some { cause := 0, gang := 0, pc := 0, word := 0 } }
  s.event l.part (eventBytes 1 (l.queue.getD 0) l.seq c.c 0 0 0 0 s.now)

/-- A saved cluster returns to the block of pairs from p on, or its images are refused. All its cohorts are placed before a record of one is
re-issued, so that an operation that names another cohort finds it where it now stands; then the gangs run (R377, R378). -/
def State.restoreUnit (s : State) (l : Launch) (cs : List Cohort) (p : Nat) (bases : List Nat) : State :=
  if cs.all fun c => s.imageOk c l.kern then
    let s := (cs.zip bases).foldl (fun s x => s.placeSaved l x.1 (p + x.1.c % 2 ^ l.kern.width 3) x.2) { s with draws := s.draws + 1 }
    cs.foldl (fun s c => s.wakeGangs c.id) (cs.foldl State.reissueSaved s)
  else cs.foldl (fun s c => if s.imageOk c l.kern then s else s.refuseImage l c) s

/-- Whether a saved cohort is a unit for the dispatcher: its whole cluster is saved, and no fault of it is pending (R353, R369, R374). -/
def State.isUnit (s : State) (c : Cohort) : Bool := (s.clusterOf c).all fun d => d.st = .saved && !d.toFault

/-- RESTORE (R376, R378): a saved cohort, with its cluster, returns to a block of pairs on which it fits. -/
def execRestore (id : Nat) (s : State) : Answer :=
  let c := s.cohort id
  match s.launch? c.launch with
  | none => .next s
  | some l =>
    if !(s.isUnit c) then .next s
    else
      let cs := s.clusterOf c
      match s.fitUnit l.part l.kern cs with
      | none => .next s
      | some (p, bs) => .next (s.restoreUnit l cs p bs)

end Sys2Proof.Machine
end

