-- ==== Sys2Proof/Machine/Dispatcher.lean ====
section
/-! DEFINITION. The dispatcher (spec/17 R353, R361, spec/18 R384): which unit of work it places, the youngest-yields rule, and the end of
cohorts and launches (R262, R345). -/
namespace Sys2Proof.Machine

open Sys2Proof

/-! ## The end of cohorts and launches -/

/-- Whether a cohort has nothing left to do (R262, R345), or its ended launch discards it (R399). -/
def State.cohortDone (s : State) (c : Cohort) : Bool :=
  if s.endedCohort c then c.st = .saved || c.st = .faulted || (c.st = .quiesced && s.settled c)
  else c.st = .resident && (s.opsOf c.id).isEmpty && (s.gangsOf c.id).all fun g => g.st = .exited && g.pend.isEmpty && g.fx.isEmpty

/-- A cohort leaves the machine and frees its pair. -/
def State.removeCohort (s : State) (c : Cohort) : State :=
  let s := if c.st = .saved then s else s.leavePair c
  let s := s.dropGangs c.id
  { s with
    cohorts := s.cohorts.filter fun d => d.id != c.id
    ops := s.ops.filter fun o => o.cohort != c.id
    locks := s.locks.filter fun x => !(s.ops.any fun o => o.id = x.op && o.cohort = c.id) }

/-- Clusters of a launch part (R350). -/
def Kern.clusters (k : Kern) : Nat := 2 ^ k.width 4

/-- Whether a launch has no cohort left to place, and none placed or saved (R345). -/
def State.launchOver (s : State) (l : Launch) : Bool :=
  !l.done && (l.ended || l.nextCluster ≥ l.kern.clusters) && !(s.cohorts.any fun c => c.launch = l.id)

/-- A launch is done: a child leaves the machine; one of a queue waits for its packet to complete. -/
def State.finishLaunch (s : State) (l : Launch) : State :=
  match l.queue with
  | none => ({ s with launches := s.launches.filter fun x => x.id != l.id } : State).freeCode l.part
  | some _ => { s with launches := s.launches.map fun x => if x.id = l.id then { x with done := true } else x }

/-! ## Units of work (R353) -/

/-- A unit of work: a saved cluster, or the next cluster of a launch. -/
inductive DUnit
  | saved (l : Launch) (c : Cohort)
  | fresh (l : Launch)
  deriving DecidableEq, Repr

/-- The launch of a unit. -/
def DUnit.launch : DUnit → Launch
  | .saved l _ => l
  | .fresh l => l

/-- Whether a launch still has resident cohorts (R361). -/
def State.hasResident (s : State) (l : Launch) : Bool := s.cohorts.any fun c => c.launch = l.id && c.st != .saved

/-- The units of a partition. A saved cluster is named by its first cohort. -/
def State.workUnits (s : State) (n : Nat) : List DUnit :=
  (s.launches.filter fun l => l.part = n && !l.done && !l.ended).flatMap fun l =>
    ((s.cohorts.filter fun c => c.launch = l.id && c.st = .saved && s.isUnit c &&
      (s.clusterOf c).all fun d => c.c ≤ d.c).map fun c => .saved l c) ++
    if l.nextCluster < l.kern.clusters then [.fresh l] else []

/-- The order of R353: priority; restores, those of a launch with resident cohorts first (R361); the launch's start; the cluster. -/
def State.unitKey (s : State) (u : DUnit) : List Nat :=
  let prio := 7 - s.launchPrio u.launch
  match u with
  | .saved l c => [prio, if s.hasResident l then 0 else 1, l.started, l.id, c.c]
  | .fresh l => [prio, 2, l.started, l.id, l.nextCluster]

/-- A list sorted by a key, equal keys as they stood. -/
def insertBy {α : Type} (key : α → List Nat) (x : α) : List α → List α
  | [] => [x]
  | y :: ys => if keyLt (key x) (key y) then x :: y :: ys else y :: insertBy key x ys

/-- The units in the order in which the dispatcher takes them. -/
def State.unitsInOrder (s : State) (n : Nat) : List DUnit := (s.workUnits n).foldl (fun us u => insertBy s.unitKey u us) []

/-- The cohort that a saved one makes yield: the resident cohort of its launch with the highest number, if higher, none being under
way (R361, R384). Where the shadow band has no room for its image, that is reported once, and the yield is made when there is room. -/
def State.yielder (s : State) (l : Launch) (c : Cohort) : Option Cohort :=
  let going := s.cohorts.any fun d => d.yieldFor = some c.id && d.saveReq
  let cs := s.cohorts.filter fun d => d.launch = l.id && d.st != .saved && d.c > c.c
  let top := cs.foldl (fun m d => max m d.c) 0
  if going then none
  else match cs.find? fun d => d.c = top with
    | some d =>
      if d.saveReq || (c.noRoom && (State.askSave l.part (some c.id) (s.clusterOf d) s).isNone) then none else some d
    | none => none

/-- What the dispatcher does next. -/
inductive DAct
  | idle
  | reap (c : Cohort)
  | over (l : Launch)
  | place (l : Launch) (p : Nat) (fits : List (Nat × List Spot))
  | restore (l : Launch) (c : Cohort)
  | yields (c d : Cohort)
  deriving DecidableEq, Repr

/-- The first unit that fits, or that makes another cohort yield (R353, R361). -/
def State.firstAct (s : State) (n : Nat) : List DUnit → DAct
  | [] => .idle
  | .fresh l :: us =>
    match s.fitCluster n l.kern with
    | some (p, fits) => .place l p fits
    | none => s.firstAct n us
  | .saved l c :: us =>
    match s.fitUnit n l.kern (s.clusterOf c) with
    | some _ => .restore l c
    | none =>
      match s.yielder l c with
      | some d => .yields c d
      | none => s.firstAct n us

/-- The next cohort of a SWAP that fits: a loaded context's come before every other unit (R404, log 24). -/
def State.swapRestore (s : State) (n : Nat) : DAct :=
  let back := (s.part n).swapBack
  let fits (u : DUnit) : Option DAct := match u with
    | .saved l c => if (s.clusterOf c).any (fun d => back.contains d.id) && (s.fitUnit n l.kern (s.clusterOf c)).isSome then some (.restore l c) else none
    | .fresh _ => none
  if back.isEmpty then .idle else ((s.unitsInOrder n).findSome? fits).getD .idle

/-- What the dispatcher does with the units of a partition (R353); a halted partition places nothing (R403). -/
def State.unitAct (s : State) (n : Nat) : DAct :=
  if (s.part n).halted || (s.part n).halting then .idle
  else match s.swapRestore n with
    | .idle => s.firstAct n (s.unitsInOrder n)
    | a => a

/-- What the dispatcher of a partition does next (R353): first what has ended frees its resources. -/
def State.dispatchAct (s : State) (n : Nat) : DAct :=
  match s.launches.find? fun l => l.part = n && s.launchOver l with
  | some l => .over l
  | none =>
    match s.cohorts.find? fun c => ((s.launch? c.launch).map (·.part)) = some n && s.cohortDone c with
    | some c => .reap c
    | none => s.unitAct n

/-- A yield: the other cohort is to be saved; without room for its image the refusal is reported (R361, R400). -/
def State.yieldTo (s : State) (n : Nat) (c d : Cohort) : State :=
  match State.askSave n (some c.id) (s.clusterOf d) s with
  | some s' => s'.setCohort { s'.cohort c.id with noRoom := false }
  | none =>
    let l := s.launch? d.launch
    (s.setCohort { c with noRoom := true }).event n
      (eventBytes 4 ((l.bind (·.queue)).getD 0) ((l.map (·.seq)).getD 0) d.c 0 0 0 0 s.now)

/-- The next cluster of a launch starts (R350, R352, R353). -/
def State.placeCluster (s : State) (l : Launch) (p : Nat) (fits : List (Nat × List Spot)) : State :=
  let s' := s.startCluster l l.nextCluster p fits
  { s' with
    draws := s'.draws + 1
    launches := s'.launches.map fun x => if x.id = l.id then { x with nextCluster := l.nextCluster + 1 } else x }

/-- One act of the dispatcher of a partition. -/
def State.doAct (s : State) (n : Nat) : DAct → State
  | .idle => s
  | .over l => s.finishLaunch l
  | .reap c => s.removeCohort c
  | .place l p fits => s.placeCluster l p fits
  | .yields c d => s.yieldTo n c d
  | .restore l c =>
    match s.fitUnit n l.kern (s.clusterOf c) with
    | some (p, bs) => s.restoreUnit l (s.clusterOf c) p bs
    | none => s

/-- One consideration of the dispatcher: one placement, restore, yield or end. -/
def State.consider (s : State) (n : Nat) : State := s.doAct n (s.dispatchAct n)

/-- The units of a partition are considered one after another until none is placed and none makes another yield; k bounds how many. -/
def State.considerUnits (n : Nat) : Nat → State → State
  | 0, s => s
  | k + 1, s => match s.unitAct n with
    | .idle => s
    | a => State.considerUnits n k (s.doAct n a)

/-- More than the units that can be placed at once: 32 gangs to a core, 96 pairs. -/
def unitBound : Nat := 8192

/-- DISPATCH_CONSIDER (R351 to R353, R361, R384). -/
def execDispatchConsider (n : Nat) (s : State) : Answer := .next (s.consider n)

/-- The saved cohort for which the cohorts of a save have yielded. -/
def State.yieldedTo (s : State) (cs : List Cohort) : Option Cohort :=
  (cs.findSome? fun d => (s.cohort d.id).yieldFor).bind fun i => s.cohorts.find? fun c => c.id = i && c.st = .saved

/-- The saved cohort that is owed the resources of a save returns, if it may and fits (R384). -/
def State.payOwed (s : State) (l : Launch) (owed : Option Cohort) : State :=
  match owed with
  | none => s
  | some d =>
    if !(s.isUnit d) || (s.part l.part).halted || (s.part l.part).halting then s
    else match s.fitUnit l.part l.kern (s.clusterOf d) with
      | some (p, bs) => s.restoreUnit l (s.clusterOf d) p bs
      | none => s

/-- SAVE_REPORT (R373, R374, R384): the image stands in the shadow band, and the cohort, with its cluster, is reported saved. At that moment
the dispatcher considers units: the saved cohort that they yielded for comes first, if it fits, then every other. -/
def execSaveReport (id : Nat) (s : State) : Answer :=
  let c := s.cohort id
  if !(s.saves c) then .next s
  else
    let cs := s.clusterOf c
    let s := cs.foldl (fun s d => if d.st = .saved then s else s.saveCohort (s.cohort d.id)) s
    let owed := s.yieldedTo cs
    let s := cs.foldl (fun s d => s.setCohort { s.cohort d.id with yieldFor := none }) s
    match s.launch? c.launch with
    | none => .next s
    | some l =>
      .next (State.considerUnits l.part unitBound (s.payOwed l owed))

end Sys2Proof.Machine
end

