-- ==== Sys2Proof/Machine/Host.lean ====
section
/-! DEFINITION. What hosts do at a partition's control space and memory (spec/21 R396 to R404, spec/18 R383): the commands PREEMPT,
RESUME, END, INVAL, REVOKE, ALLOW, QPRI, HALT and SWAP, COMMAND_DONE, INVALIDATION_COMPLETE and CONTROL_ACCESS_REFUSED, and what memory requests do
(HOST_MEMORY_REQUEST stands in Manage.lean). -/
namespace Sys2Proof.Machine

open Sys2Proof

/-! ## The command block (R399) -/

/-- A command as its block holds it. -/
def Cmd.of (cmd a0 a1 a2 status : Nat) : Cmd := { cmd := cmd, a0 := a0, a1 := a1, a2 := a2, status := status }

/-- A command is taken: busy with the effect f, or refused where f is none. One written while another is busy changes nothing (R399); in boot mode
the access is refused (R418). -/
def State.command (s : State) (n cmd a0 a1 a2 : Nat) (f : State → Option State) : State :=
  let p := s.part n
  if s.mg.status != 2 then s.bootRefused n 0x20000 true
  else if !p.en || p.cmd.status = 1 then s
  else match f s with
    | some s' => s'.setPart n { s'.part n with cmd := .of cmd a0 a1 a2 1 }
    | none => s.setPart n { p with cmd := .of cmd a0 a1 a2 3 }

/-- Whether a command's unused arguments hold zeros (R399). -/
def unusedZero (cmd a0 a1 a2 : Nat) : Bool :=
  match cmd with
  | 3 | 7 => a2 = 0
  | 5 | 6 | 9 => a1 = 0 && a2 = 0
  | 8 => a0 = 0 && a1 = 0 && a2 = 0
  | _ => true

/-- The started launch of a queue and SEQ that has not completed (R399). -/
def State.launchOf (s : State) (n q seq : Nat) : Option Launch :=
  s.launches.find? fun l => l.part = n && l.queue = some q && l.seq = seq && !l.done

/-- Cohort number c of a launch. -/
def State.cohortOf (s : State) (l : Launch) (c : Nat) : Option Cohort := s.cohorts.find? fun d => d.launch = l.id && d.c = c

/-- The cohorts that a PREEMPT names, each with its cluster (R369, R399). -/
def State.preempted (s : State) (l : Launch) (c : Nat) : Option (List Cohort) :=
  if c = 0xFFFFFFFF then some (s.cohorts.filter fun d => d.launch = l.id && d.st != .saved)
  else (s.cohortOf l c).map s.clusterOf

/-- PREEMPT (R399): refused without room for the images. -/
def execPreempt (n q seq c : Nat) (s : State) : Answer :=
  .next (s.command n 1 q seq c fun s =>
    match s.launchOf n q seq with
    | none => none
    | some l => (s.preempted l c).bind fun cs => State.askSave n none cs s)

/-- RESUME (R366, R399): a resident cohort that has faulted resumes in place; a saved one becomes a unit. -/
def execResume (n q seq c : Nat) (s : State) : Answer :=
  .next (s.command n 2 q seq c fun s =>
    match (s.launchOf n q seq).bind fun l => s.cohortOf l c with
    | none => none
    | some d =>
      if d.st = .faulted && !d.saveReq then some (s.resumeHere d)
      else if d.st = .saved && d.toFault then some (s.setCohort { d with toFault := false, fault := none })
      else none)

/-- END (R399): every cohort stops, and the launch completes once all are gone. -/
def execEndLaunch (n q seq : Nat) (s : State) : Answer :=
  .next (s.command n 3 q seq 0 fun s =>
    (s.launchOf n q seq).map fun l => { s with launches := s.launches.map fun x => if x.id = l.id then { x with ended := true } else x })

/-- INVAL (R383, R399). -/
def execInval (n pasid first bytes : Nat) (s : State) : Answer :=
  .next (s.command n 4 pasid first bytes fun s =>
    if pasid ≥ 2 ^ 20 || bytes ≥ 2 ^ 48 || first ≥ 2 ^ 57 then none
    else some (s.setPart n { s.part n with inval := some (pasid, first, bytes) }))

/-- REVOKE (R397): it takes effect when the command completes. -/
def execRevoke (n pasid : Nat) (s : State) : Answer :=
  .next (s.command n 5 pasid 0 0 fun s => if pasid ≥ 2 ^ 20 then none else some s)

/-- ALLOW (R397): it takes effect when the command completes. -/
def execAllow (n pasid : Nat) (s : State) : Answer :=
  .next (s.command n 6 pasid 0 0 fun s => if pasid ≥ 2 ^ 20 then none else some s)

/-- QPRI (R399). -/
def execQpri (n q prio : Nat) (s : State) : Answer :=
  .next (s.command n 7 q prio 0 fun s =>
    if q ≥ 16 || prio > 7 then none else some (s.setQueue n q { s.queue n q with prio := prio }))

/-- HALT (R403): every cohort of the partition stops. -/
def execHalt (n : Nat) (s : State) : Answer :=
  .next (s.command n 8 0 0 0 fun s => some (if (s.part n).halted then s else s.setPart n { s.part n with halting := true }))

/-- The cohorts of a partition. -/
def State.cohortsOfPart (s : State) (n : Nat) : List Cohort :=
  s.cohorts.filter fun c => ((s.launch? c.launch).map (·.part)) = some n

/-- Where the running context of a partition is written: the first free place of the shadow band for its 4 KiB (R404, log 24). -/
def State.contextPlace (s : State) (n : Nat) : Option Nat :=
  let p := s.part n
  shadowPlace p.shadow p.shlen (s.shadowUsed n ++ p.contexts.map fun x => (x.1, 4096)) 4096

/-- SWAP (R404): after a halt, every cohort is saved; COMMAND_DONE takes the remaining steps. -/
def execSwap (n image : Nat) (s : State) : Answer :=
  .next (s.command n 9 image 0 0 fun s =>
    let p := s.part n
    if !p.halted || image < p.shadow || p.shadow + p.shlen ≤ image then none
    else
      let out := ((s.cohortsOfPart n).filter fun c => c.st != .saved).map (·.id)
      match State.askSave n none (s.cohortsOfPart n) s with
      | some s' => if (s'.contextPlace n).isSome then some (s'.setPart n { s'.part n with swapTo := some image, swapOut := out }) else none
      | none => none)

/-! ## Completion of commands (R383, R399, R403, R404) -/

/-- Whether every cohort of a halting partition stands still, its matrix queues empty (R403). -/
def State.allQuiet (s : State) (n : Nat) : Bool :=
  (s.cohortsOfPart n).all fun c => c.st = .saved || c.st = .faulted || (c.st = .quiesced && s.settled c && !c.toFault)

/-- The context of a partition as it stands once all its cohorts are saved (R404). -/
def State.context (s : State) (n : Nat) : Ctx :=
  let p := s.part n
  { cohorts := s.cohortsOfPart n, launches := s.launches.filter fun l => l.part = n, queues := p.queues, childq := p.childq
    s2root := p.s2root, pasidt := p.pasidt, sigbase := p.sigbase, back := p.swapOut }

/-- Whether the saved images of a context keep the layouts of R372 and R374, so that a SWAP takes it (R404). -/
def State.contextOk (s : State) (x : Ctx) : Bool :=
  x.cohorts.all fun c => match x.launches.find? fun l => l.id = c.launch with
    | some l => s.imageOk c l.kern
    | none => false

/-- The context at an address of a partition that a SWAP may load (R404). -/
def State.loadable (s : State) (n a : Nat) : Option Ctx :=
  match (s.part n).contexts.find? fun x => x.1 = a with
  | some x => if s.contextOk x.2 then some x.2 else none
  | none => none

/-- The mappings of the partition are forgotten, the running context is written to its place, and the one at an address becomes the running one,
its cohorts to be restored (R404, log 24). Where none can be loaded the SWAP is refused: the partition stays halted with the outgoing
context saved, and the event page records it. -/
def State.swapIn (s : State) (n a : Nat) : State :=
  let s : State := { s with tlb := s.tlb.filter fun e => e.part != n }
  let p := s.part n
  let out := ((s.contextPlace n).getD p.shadow, s.context n)
  match s.loadable n a with
  | none =>
    (s.setPart n { p with contexts := p.contexts ++ [out], swapTo := none, swapOut := [], cmd := { p.cmd with status := 3 } }).event n
      (eventBytes 4 0 0 0 0 0 0 0 s.now)
  | some x =>
    let mine := (s.cohortsOfPart n).map (·.id)
    let s' : State := { s with
      cohorts := (s.cohorts.filter fun c => !(mine.contains c.id)) ++ x.cohorts
      launches := (s.launches.filter fun l => l.part != n) ++ x.launches }
    s'.setPart n { p with
      contexts := (p.contexts.filter fun y => y.1 != a) ++ [out]
      queues := x.queues, childq := x.childq, s2root := x.s2root, pasidt := x.pasidt, sigbase := x.sigbase
      halted := false, swapTo := none, swapOut := [], swapBack := x.back }

/-- Whether a launch that END names is over: its packet has completed too, so that DSIG is counted (R343, R399). -/
def State.endOver (s : State) (n q seq : Nat) : Bool := !(s.launches.any fun l => l.part = n && l.queue = some q && l.seq = seq)

/-- Whether the command of a partition has had all its effects, or SWAP those that come before its context is loaded (R399, R404). -/
def State.commandOver (s : State) (n : Nat) : Bool :=
  let p := s.part n
  p.cmd.status = 1 && match p.cmd.cmd with
  | 1 => match s.launchOf n p.cmd.a0 p.cmd.a1 with
    | some l => s.cohorts.all fun c => c.launch != l.id || c.st = .saved || !c.saveReq
    | none => true
  | 3 => s.endOver n p.cmd.a0 p.cmd.a1
  | 4 => p.inval.isNone
  | 8 => p.halted || s.allQuiet n
  | 9 => match p.swapTo with
    | some _ => (s.cohortsOfPart n).all fun c => c.st = .saved
    | none => s.swapRestore n = .idle
  | _ => true

/-- What a command does at the moment of its completion: REVOKE and ALLOW change the PASID (R397), HALT halts (R403), SWAP has restored its
cohorts (R404). -/
def Part.complete (p : Part) : Part :=
  match p.cmd.cmd with
  | 5 => { p with revoked := if p.revoked.contains p.cmd.a0 then p.revoked else p.revoked ++ [p.cmd.a0] }
  | 6 => { p with revoked := p.revoked.filter (· != p.cmd.a0) }
  | 8 => { p with halted := true, halting := false }
  | 9 => { p with swapBack := [] }
  | _ => p

/-- COMMAND_DONE (R399, R403, R404): STATUS becomes 2 and vector 2 is sent; of a SWAP first the context is loaded. -/
def execCommandDone (n : Nat) (s : State) : Answer :=
  if !(s.commandOver n) then .next s
  else
    let p := s.part n
    match p.swapTo with
    | some a => .next (s.swapIn n a)
    | none =>
      let p := p.complete
      .next ((s.setPart n { p with cmd := { p.cmd with status := 2 } }).interrupt n 2)

/-- Whether an operation has pinned a page that an invalidation covers (R383). A stage-2 invalidation covers every pin (log 26). -/
def Op.pinned (o : Op) (n pasid first bytes : Nat) : Bool :=
  o.part = n && o.pins.any fun p => pasid = 0 || (o.pasid = pasid && (bytes = 0 || (p.1 * 4096 < first + bytes && first < (p.1 + 1) * 4096)))

/-- Whether the invalidation of a partition may complete. -/
def State.invalOver (s : State) (n : Nat) : Bool :=
  match (s.part n).inval with
  | none => false
  | some (pasid, first, bytes) => !(s.ops.any fun o => o.pinned n pasid first bytes)

/-- Whether an invalidation covers a mapping (R383, R399): PASID 0 is stage 2, and 0 bytes are all. -/
def TlbEntry.covered (e : TlbEntry) (n pasid first bytes : Nat) : Bool :=
  e.part = n && (pasid = 0 || (e.pasid = pasid && (bytes = 0 || (e.va < first + bytes && first < e.va + 2 ^ e.page.size))))

/-- The state after an invalidation: no later lookup uses a mapping that it covers (R383). -/
def State.forget (s : State) (n pasid first bytes : Nat) : State :=
  { s with tlb := s.tlb.filter fun e => !(e.covered n pasid first bytes) }

/-- INVALIDATION_COMPLETE (R383). -/
def execInvalidationComplete (n : Nat) (s : State) : Answer :=
  match (s.part n).inval with
  | some (pasid, first, bytes) =>
    .next (if s.invalOver n then (s.setPart n { s.part n with inval := none }).forget n pasid first bytes else s)
  | none => .next s

/-! ## Memory requests (R393, R396, R397, R402) -/

/-- Why a request is refused before its address is looked at: its fabric word (R393), PASID 0 of another node than the host's, a revoked PASID
(R397). -/
def State.hostRefusal (s : State) (r : HostReq) : Option Nat :=
  if r.zero != 0 || r.space > 2 || r.ord > 4 then some codeRefusedFormat
  else if r.space = 2 && (r.src != s.mg.hnode || (s.part r.part).node != s.mg.mnode) then some codeRefusedFormat
  else if r.space != 0 then none
  else if r.pasid ≥ 2 ^ 20 || (r.pasid = 0 && r.src != s.mg.hnode) then some codeRefusedFormat
  else if (s.part r.part).revoked.contains r.pasid then some codeRefusedPasid
  else none

/-- The bytes that a request of a host names. -/
def reqBytes (r : HostReq) : Nat := match r.op with | .atomic aop => aopBytes aop | _ => r.len

/-- A request of a host at its home slice (R222, R396): what it leaves and what its reply carries. -/
def State.hostAccess (s : State) (r : HostReq) : Except Nat (State × List Byte) :=
  match r.op with
  | .read => (s.readVirt r.part r.pasid r.addr r.len).map fun bs => (s, bs)
  | .write => (s.storeVirt r.part r.pasid r.addr (r.data.take r.len)).map fun s' => (s'.triggerAll, [])
  | .atomic aop =>
    let n := aopBytes aop
    match s.readVirt r.part r.pasid r.addr n with
    | .error c => .error c
    | .ok old =>
      let first := leNat (r.data.take n)
      let opd := if aop ≥ 14 then leNat ((r.data.drop n).take n) else first
      (s.storeVirt r.part r.pasid r.addr (leBytes n (aopNew aop (leNat old) opd first))).map fun s' => (s'.triggerAll, old)

/-- The asker with the home slice that answers for it, where the address lies in the partition's own memory (R276, log 13). -/
def State.atHome (s : State) (q : Asker) (r : HostReq) : Asker :=
  match s.landsAt r.part r.pasid r.addr 1 with
  | la :: _ => { q with sdie := (s.part r.part).home la / 16, srt := sliceRouter ((s.part r.part).home la % 16) }
  | [] => q

/-- A memory request of a host, answered: what it does and the bytes it asks for, or the status with which it changes nothing. A line that a silent
link should bring fails it with FABRIC, and the link is counted (R392, R393, R396). -/
def State.hostMemory (s : State) (q : Asker) (r : HostReq) : State :=
  let q := s.atHome q r
  match s.silentLine r.part r.pasid r.addr (reqBytes r) with
  | some la => (s.linkFailed (cxlLinkOf la) la).replied q codeFabric []
  | none => match s.hostAccess r with
    | .ok (s', bs) => s'.replied q 0 bs
    | .error c => s.replied q c []

/-! ## Control space (R398) -/

/-- Bytes of the event page: the count N, then entry 1 + n mod 63 (R400). -/
def Part.eventPage (p : Part) : List Byte :=
  leBytes 8 p.nevents ++ leBytes 56 0 ++ (List.range 63).flatMap fun i => p.events.getD i (leBytes 64 0)

/-- An entry of the interrupt remap table (R401). -/
def Remap.bytes (r : Remap) : List Byte :=
  leBytes 8 ((if r.v then 1 else 0) + (if r.pend then 2 else 0) + r.dnode % 2 ^ 12 * 2 ^ 16) ++ leBytes 8 r.addr

/-- The 8 bytes at an offset of the control space (R398): offsets not listed read as zero. -/
def State.controlRead (s : State) (n off : Nat) : List Byte :=
  let p := s.part n
  let page := off / 4096
  if off < 0x20000 then
    if page % 2 = 1 then ((p.queues.getD (page / 2) .init).status.readN (off % 4096) 8) else leBytes 8 0
  else if off < 0x20040 then
    leBytes 8 (match (off - 0x20000) / 8 with | 0 => p.cmd.cmd | 1 => p.cmd.a0 | 2 => p.cmd.a1 | 3 => p.cmd.a2 | 7 => p.cmd.status | _ => 0)
  else if page = 0x21 then (p.eventPage.drop (off % 4096)).take 8
  else if 0x22000 ≤ off && off < 0x22080 then ((p.remap.flatMap Remap.bytes).drop (off - 0x22000)).take 8
  else leBytes 8 0

/-- Whether a control access is refused (R398): not an aligned 8-byte access, or a write to a read-only page. -/
def controlRefused (off len : Nat) (write : Bool) : Bool :=
  len != 8 || off % 8 != 0 || (write && ((off < 0x20000 && off / 4096 % 2 = 1) || off / 4096 = 0x21))

/-- A 64-byte write to the command block (R399): each command by its meaning; any other CMD, and one with an unused argument that is not
zero, is refused. -/
def execCommandWrite (n : Nat) (bytes : List Byte) (s : State) : Answer :=
  let w (i : Nat) : Nat := leNat ((bytes.drop (8 * i)).take 8)
  let refused : Answer := .next (s.command n (w 0) (w 1) (w 2) (w 3) fun _ => none)
  if !unusedZero (w 0) (w 1) (w 2) (w 3) then refused
  else match w 0 with
    | 1 => execPreempt n (w 1) (w 2) (w 3) s
    | 2 => execResume n (w 1) (w 2) (w 3) s
    | 3 => execEndLaunch n (w 1) (w 2) s
    | 4 => execInval n (w 1) (w 2) (w 3) s
    | 5 => execRevoke n (w 1) s
    | 6 => execAllow n (w 1) s
    | 7 => execQpri n (w 1) (w 2) s
    | 8 => execHalt n s
    | 9 => execSwap n (w 1) s
    | _ => refused

/-! ## Accesses to the control space (R398) -/

/-- The asker has its write acknowledged after what the write does. -/
def acked (q : Asker) : Answer → Answer
  | .next s => .next (s.replied q 0 [])
  | a => a

/-- An access to the control space of partition n, answered to its asker (R398): the command block takes 64 bytes, a notify page 64 bytes or an
aligned word, the remap table an aligned word; an aligned word elsewhere reads as controlRead gives and ignores writes, but for the pages
that are read only; the rest is refused. A command written while another is busy is refused too (R399, log 13). -/
def State.controlAccess (s : State) (q : Asker) (n off len : Nat) (write : Option (List Byte)) : Answer :=
  let refused : Answer := .next (s.replied q codeRefusedFormat [])
  match write with
  | none => if controlRefused off len false then refused else .next (s.replied q 0 (s.controlRead n off))
  | some data =>
    let bytes := exactly len data
    if off = 0x20000 && len = 64 then if (s.part n).cmd.status = 1 then refused else acked q (execCommandWrite n bytes s)
    else if off < 0x20000 && off / 4096 % 2 = 0 && (len = 64 || !(controlRefused off len true)) then
      acked q (execSubmission n (off / 8192) (off % 4096) bytes s)
    else if controlRefused off len true then refused
    else if 0x22000 ≤ off && off < 0x22080 then
      acked q (execInterruptRemapWrite n ((off - 0x22000) / 16) (off / 8 % 2) (BitVec.ofNat 64 (leNat bytes)) s)
    else .next (s.replied q 0 [])

/-- CONTROL_ACCESS_REFUSED (R398, R418): an access of the host node to a control space; a 64-byte submission and the command write are its
exceptions. -/
def execControlAccessRefused (n off len : Nat) (write : Option (List Byte)) (s : State) : Answer :=
  if s.mg.status != 2 then .next (s.bootRefused n off write.isSome)
  else if !((s.part n).en) then .next s
  else ({ s with draws := s.draws + 1 } : State).controlAccess (s.hostAsker n off write.isSome) n off len write

end Sys2Proof.Machine
end

