-- ==== Sys2Proof/Machine/Hash.lean ====
section
/-! DEFINITION. SHA-256 and RSASSA-PSS verification, which the spec names (spec/22 R410, R411, spec/23 R418 to R421): FIPS 180-4 and
RFC 8017 with SHA-256, MGF1 and a salt of 32 bytes. -/
namespace Sys2Proof.Machine

open Sys2Proof

/-! ## SHA-256 -/

/-- The greatest number from r up to below r + 2^n whose k-th power is at most x, bit by bit from the top. -/
def rootBits (k x : Nat) : Nat → Nat → Nat
  | 0, r => r
  | n + 1, r => rootBits k x n (if (r + 2 ^ n) ^ k ≤ x then r + 2 ^ n else r)

/-- The first 32 bits of the fraction of the k-th root of a number below 512. -/
def rootFraction (k n : Nat) : W32 := BitVec.ofNat 32 (rootBits k (n * 2 ^ (32 * k)) 37 0)

/-- The primes below n. -/
def primesBelow (n : Nat) : List Nat := (List.range n).filter fun p => 2 ≤ p && (List.range p).all fun d => d < 2 || p % d != 0

/-- The constant of each of the 64 rounds, from the cube roots of the first 64 primes; the initial hash value, from the square roots of the
first eight. -/
def roundKeys : List W32 := (primesBelow 312).map (rootFraction 3)
def hashStart : List W32 := (primesBelow 20).map (rootFraction 2)

/-- A big-endian number. -/
def beNat (bs : List Byte) : Nat := bs.foldl (fun a b => 256 * a + b.toNat) 0

/-- n big-endian bytes of a number. -/
def beBytes (n x : Nat) : List Byte := (leBytes n x).reverse

/-- The exclusive or of a word turned right by each of some amounts. -/
def turned (x : W32) (ns : List Nat) : W32 := ns.foldl (fun y n => y ^^^ x.rotateRight n) 0

/-- A round: h is the eight working words, m the sixteen words of the message that come next, of which it uses the first and makes one more. -/
def hashRound (x : List W32 × List W32) (key : W32) : List W32 × List W32 :=
  let h (i : Nat) : W32 := x.1.getD i 0
  let m (i : Nat) : W32 := x.2.getD i 0
  let next := m 0 + (turned (m 1) [7, 18] ^^^ (m 1 >>> 3)) + m 9 + (turned (m 14) [17, 19] ^^^ (m 14 >>> 10))
  let pick := (h 4 &&& (h 5 ^^^ h 6)) ^^^ h 6
  let most := (h 0 &&& (h 1 ||| h 2)) ||| (h 1 &&& h 2)
  let t := h 7 + turned (h 4) [6, 11, 25] + pick + key + m 0
  ((t + turned (h 0) [2, 13, 22] + most) :: x.1.take 3 ++ (h 3 + t) :: (x.1.drop 4).take 3, x.2.drop 1 ++ [next])

/-- The big-endian words of a byte string. -/
def beWords : List Byte → List W32
  | a :: b :: c :: d :: bs => BitVec.ofNat 32 (beNat [a, b, c, d]) :: beWords bs
  | _ => []

/-- The hash value after the blocks of sixteen words that ms lists, at most n. -/
def hashBlocks : Nat → List W32 → List W32 → List W32
  | 0, h, _ => h
  | n + 1, h, ms =>
    let after := (roundKeys.foldl hashRound (h, ms.take 16)).1
    hashBlocks n (h.zipWith (· + ·) after) (ms.drop 16)

/-- SHA-256 of a byte string: 32 bytes. -/
def sha256 (m : List Byte) : List Byte :=
  let fill := (119 - m.length % 64) % 64
  let ms := beWords (m ++ [0x80] ++ List.replicate fill 0 ++ beBytes 8 (8 * m.length))
  (hashBlocks (ms.length / 16) hashStart ms).flatMap fun w => beBytes 4 w.toNat

/-! ## RSASSA-PSS (R411) -/

/-- Modular power by 65,537. -/
def powE (x m : Nat) : Nat := (List.range 16).foldl (fun y _ => y * y % m) (x % m) * (x % m) % m

/-- MGF1 with SHA-256: n bytes from a seed. -/
def mgf1 (seed : List Byte) (n : Nat) : List Byte :=
  ((List.range ((n + 31) / 32)).flatMap fun i => sha256 (seed ++ beBytes 4 i)).take n

/-- Verification of a signature by a 3,072-bit modulus, both octet strings of 384 bytes (R411). -/
def pssVerify (modulus msg sig : List Byte) : Bool :=
  let n := beNat modulus
  let s := beNat sig
  let em := beBytes 384 (powE s n)
  let masked := em.take 351
  let h := (em.drop 351).take 32
  let mask := mgf1 h 351
  let db := (masked.zip mask).map fun p => p.1 ^^^ p.2
  let db := match db with | b :: bs => (b &&& 0x7F) :: bs | [] => []
  let salt := db.drop 319
  modulus.length = 384 && sig.length = 384 && 2 ^ 3071 ≤ n && s < n && em.drop 383 = [0xBC] && (em.take 1).all (fun b => b < 0x80) &&
  db.take 318 = List.replicate 318 0 && (db.drop 318).take 1 = [1] &&
  sha256 (List.replicate 8 0 ++ sha256 msg ++ salt) = h

/-! ## The revision identity (R418, R419, R410) -/

/-- Bytes of the image window (R418). -/
def windowLen : Nat := 2 ^ 24

/-- The image in the window: its length is the image's own (log 4). -/
def Mgmt.image (m : Mgmt) : List Byte := m.window.readN 0 (Config.imageLength (m.window.map (·.1)) % (windowLen + 1))

/-- The fused hash of the root key (R411, R419). -/
def rootKeyHash : List Byte := exactly 32 (sha256 Config.rootModulus)

/-- The revision identity record (R419), of the Oliesh that the running image carries. -/
def revisionRecord (m : Mgmt) : List Byte :=
  leBytes 4 0x4B435249 ++ leBytes 4 7280 ++ leBytes 4 Config.stepping.toNat ++ leBytes 4 (Config.olieshVersion m.image).toNat ++
  rootKeyHash ++ leBytes 16 0

/-- REVID (R410, R419). -/
def revid (m : Mgmt) : List Byte := exactly 32 (sha256 (revisionRecord m))

/-- The certificate of a key of the device, with a role and a modulus (R411, R421). -/
def certBytes (m : Mgmt) (role : Nat) (modulus : List Byte) : List Byte :=
  let body := leBytes 4 0x4B434345 ++ leBytes 4 role ++ revid m ++ List.replicate 88 0 ++ exactly 384 modulus
  body ++ exactly 384 (Config.rootSign body) ++ List.replicate 128 0

/-- Whether an image's signature is good and its root modulus is the fused one (R418). -/
def imageGood (image : List Byte) : Bool :=
  pssVerify (Config.imageModulus image) (Config.imageSigned image) (Config.imageSignature image) &&
  sha256 (Config.imageModulus image) = rootKeyHash

/-- An extend of measurement register i by a digest (R420). -/
def State.extend (s : State) (i : Nat) (d : List Byte) : State :=
  { s with mg := { s.mg with meas := s.mg.meas.modify i fun m => sha256 (m ++ d) } }

end Sys2Proof.Machine
end

