-- ==== Sys2Proof/Machine/Translate.lean ====
section
/-! DEFINITION. Oliesh: the division of a text into instructions (spec/22 R407), the translation of portable text into native text (R409,
log 6) and the native sections that the device writes and signs (R410 to R412). -/
namespace Sys2Proof.Machine

open Sys2Proof

/-! ## Sections of a container -/

/-- Portable text, kernel table and data of a container (R405). -/
def objText (o : List Byte) : List Byte := (o.drop (le o 32 4)).take (le o 36 4)
def objTable (o : List Byte) : List Byte := (o.drop (le o 24 4)).take (le o 28 4)
def objData (o : List Byte) : List Byte := (o.drop (le o 40 4)).take (le o 44 4)
/-- First byte and length of the text of kernel i (R406). -/
def objRange (o : List Byte) (i : Nat) : Nat × Nat := (le (objTable o) (576 * i + 8) 4, le (objTable o) (576 * i + 12) 4)
/-- Entry and handler of kernel i (R406). -/
def objEntry (o : List Byte) (i : Nat) : Nat × Nat := (le (objTable o) (576 * i) 4, le (objTable o) (576 * i + 4) 4)

/-- The base word and the units after it at an offset of a text in bytes; units beyond the text are none. -/
def unitsAt (text : List Byte) (a : Nat) : List W32 := unitsOf ((text.drop a).take 16)

/-- The boundaries of the division of a text range into instructions: from a to end_, at most n (R407). -/
def boundsFrom (text : List Byte) (end_ : Nat) : Nat → Nat → List Nat
  | 0, _ => []
  | n + 1, a => if a ≥ end_ then [] else a :: boundsFrom text end_ n (a + unitLength (unitsAt text a))

/-- The units between boundaries: those of each instruction, the last one cut at the end of the range. -/
def unitsBetween (text : List Byte) (end_ : Nat) : List Nat → List (Nat × List W32)
  | [] => []
  | a :: as => (a, unitsOf ((text.drop a).take (as.headD end_ - a))) :: unitsBetween text end_ as

/-- The boundaries of kernel i of an object (R407). -/
def objBounds (o : List Byte) (i : Nat) : List Nat :=
  let (first, len) := objRange o i
  boundsFrom (objText o) (first + len) (len / 8 + 1) first

end Sys2Proof.Machine

namespace Sys2Proof

open Sys2Proof.Machine

/-! ## Code labels used as operand values (R90) -/

/-- The literal with another value of its size. -/
def Lit.set : Lit → Nat → Lit
  | .none, _ => .none
  | .w32 _, n => .w32 (BitVec.ofNat 32 n)
  | .w64 _, n => .w64 (BitVec.ofNat 64 n)

/-- The value of a literal. -/
def Lit.value : Lit → Nat
  | .none => 0
  | .w32 x => x.toNat
  | .w64 x => x.toNat

/-- The operand fields of an instruction that may hold a value: field number and code (R49). -/
def View.operands : View → List (Nat × Nat)
  | .cf op f =>
    let sh := opShape op f
    ([(0, sh.d, f.d), (1, sh.a, f.a), (2, sh.b, f.b), (3, sh.c, f.c)].filter fun x => x.2.1.isOperand).map fun x => (x.1, x.2.2.toNat)
  | .cs op f => if (sForm op).2.isOperand then [(1, f.a.toNat)] else []
  | _ => []

/-- The view with one operand field's code replaced. -/
def View.setCode : View → Nat → Nat → View
  | .cf op f, 0, c => .cf op { f with d := BitVec.ofNat 9 c }
  | .cf op f, 1, c => .cf op { f with a := BitVec.ofNat 9 c }
  | .cf op f, 2, c => .cf op { f with b := BitVec.ofNat 9 c }
  | .cf op f, 3, c => .cf op { f with c := BitVec.ofNat 9 c }
  | .cs op f, 1, c => .cs op { f with a := BitVec.ofNat 9 c }
  | v, _, _ => v

/-- The view with its literal replaced. -/
def View.setLit : View → Lit → View
  | .cf op f, l => .cf op { f with lit := l }
  | .cs op f, l => .cs op { f with lit := l }
  | v, _ => v

/-- The literal of a view. -/
def View.lit : View → Lit
  | .cf _ f => f.lit
  | .cs _ f => f.lit
  | _ => .none

/-- An instruction with its code labels rewritten (R90): isLabel tells which operand fields hold one, find gives the native offset. A label
in a literal stays one; a label coded inline (0 to 15, R48) becomes a 32-bit literal where the word has none. Where the word cannot take it,
it stays as it is (log 6). -/
def View.relabel (isLabel : Nat → Bool) (find : Nat → Option Nat) (v : View) : View :=
  let named := v.operands.filter fun x => isLabel x.1
  let new :=
    if v.operands.any fun x => x.2 = 384 || x.2 = 385 then
      if named.any fun x => x.2 = 384 || x.2 = 385 then (find v.lit.value).map fun n => v.setLit (v.lit.set n) else none
    else match named.find? fun x => 352 ≤ x.2 && x.2 ≤ 367 with
      | some x => (find (x.2 - 352)).map fun n => (v.setCode x.1 384).setLit (.w32 (BitVec.ofNat 32 n))
      | none => none
  match new with
  | some w => if w.faults.isEmpty then w else v
  | none => v

end Sys2Proof

namespace Sys2Proof.Machine

open Sys2Proof

/-! ## Portable instructions (R409) -/

/-- An instruction of a kernel's portable text: its offset, its units and, where the word raises no decode fault, its view; a word that raises
one keeps its bits (R407). -/
structure Source where
  at_ : Nat
  raw : List W32
  view : Option View
  deriving DecidableEq, Repr

/-- The view of units that raise no decode fault. -/
def soundView (us : List W32) : Option View :=
  match decode us with
  | .ok i => i.view.bind fun v => if v.faults.isEmpty then some v else none
  | .error _ => none

/-- The instructions of kernel i. -/
def sourcesOf (o : List Byte) (i : Nat) : List Source :=
  let (first, len) := objRange o i
  (unitsBetween (objText o) (first + len) (objBounds o i)).map fun x => { at_ := x.1, raw := x.2, view := soundView x.2 }

/-- The registers of kernel i. -/
def objRegs (o : List Byte) (i : Nat) : Nat := le (objTable o) (576 * i + 56) 2

/-- A gang with this many v registers: what a text can know of the gang that runs it. -/
def Gang.ofRegs (regs : Nat) : Gang := { Gang.idle with kn := { Kern.empty with regs := regs } }

/-- The fixed latency of an instruction that only reads and writes registers (R34). -/
def fixedLat (op : Nat) : Option Nat :=
  if op = 0x38 || op = 0x39 then some 4
  else if 0x20 ≤ op && op ≤ 0x3B && op != 0x36 && op != 0x37 then some 2
  else if 0x40 ≤ op && op ≤ 0x5C then some 4
  else if 0x7A ≤ op && op ≤ 0x80 then some 16
  else if 0x70 ≤ op && op ≤ 0x86 then some 6
  else if 0x90 ≤ op && op ≤ 0x95 then some 2
  else none

/-- How many core cycles after its issue slots are free again an instruction's register results have landed (R34), as far as a text can
tell: a plane result may take longer (log 6). -/
def landBound (op : Nat) : Nat :=
  match fixedLat op with
  | some n => n
  | none =>
    if op = 0xC0 || op = 0xC1 then 8
    else if op = 0x36 || op = 0x37 || (0xC2 ≤ op && op ≤ 0xCA) then 24
    else if op = 0x96 then 19
    else if op = 0xA0 then 20
    else if 0xA1 ≤ op && op ≤ 0xAB then 64
    else if op = 0xAD then 12
    else if op = 0xAE then 20
    else if op = 0xAF then 24
    else if op = 0x13 || op ≥ 0xD0 then 8
    else if op ≥ 0xA0 then 4
    else 2

/-- Instructions in which a slot may block: their results land counted from the completion, not from the issue (R233, R240, R269). -/
def mayBlock (op : Nat) : Bool := op = 0xCB || (0xD8 ≤ op && op ≤ 0xDA)

end Sys2Proof.Machine

namespace Sys2Proof

open Sys2Proof.Machine

/-- Registers that an instruction reads and writes, by code; a random rounding draws from the lane's generator (R73). -/
def View.reads (g : Gang) (v : View) : List Nat :=
  ((srcsOf g 0 v).map fun x => x.2.code) ++ (if v.hdr.g = 0 then [] else [320 + v.hdr.g.toNat]) ++
  match v with | .cf _ f => if f.rnd = 4 then [500] else [] | _ => []
def View.writes (g : Gang) (v : View) : List Nat :=
  ((dstsOf g 0 v).map Tgt.code) ++ match v with | .cf _ f => if f.rnd = 4 then [500] else [] | _ => []

/-- The lane value that an instruction writes: its code and registers (R22). -/
def View.laneValue : View → Option (Nat × Nat)
  | .cf op f => if laneOp op && (f.d.toNat < 256 || (336 ≤ f.d.toNat && f.d.toNat ≤ 343)) then some (f.d.toNat, (opShape op f).d.regs) else none
  | _ => none

/-- An instruction of classes V and K that reads and writes only registers, without REGION, that cannot trap. -/
def View.calm (g : Gang) (v : View) : Bool :=
  (fixedLat v.op).isSome && !v.hdr.region && (gangFaults g v).isEmpty && match v with | .cf _ _ => true | _ => false

/-- A view with its STALL filled. -/
def View.setStall (stall : Nat) : View → View
  | .cf op f => .cf op { f with h := { f.h with stall := BitVec.ofNat 4 stall } }
  | .cs op f => .cs op { f with h := { f.h with stall := BitVec.ofNat 4 stall } }
  | .cq f => .cq { f with h := { f.h with stall := BitVec.ofNat 4 stall } }
  | .cj op f => .cj op { f with h := { f.h with stall := BitVec.ofNat 4 stall } }

/-- A view with source fields replaced. -/
def View.replace (a b c : Option Nat) (v : View) : View :=
  let put (v : View) (i : Nat) : Option Nat → View | some x => v.setCode i x | none => v
  put (put (put v 1 a) 2 b) 3 c

/-- Whether two instructions must keep their order: a register that one writes and the other reads or writes. -/
def View.ordered (g : Gang) (v w : View) : Bool :=
  (v.writes g).any (fun c => (w.reads g).contains c || (w.writes g).contains c) || (w.writes g).any fun c => (v.reads g).contains c

end Sys2Proof

namespace Sys2Proof.Machine

open Sys2Proof

/-! ## Basic blocks -/

/-- The code addresses at which control may enter a kernel's text: entry, handler, branch targets, joins and code labels (R409). -/
def entriesOf (labels : List Nat) (o : List Byte) (i : Nat) (ss : List Source) : List Nat :=
  let far (s : Source) (d : Int) : List Nat := if 0 ≤ (s.at_ : Int) + 4 * d then [((s.at_ : Int) + 4 * d).toNat] else []
  [(objEntry o i).1, (objEntry o i).2] ++ labels ++ ss.flatMap fun s => match s.view with
    | some (.cj op f) => (if (jForm op).2.1 then far s f.off.toInt else []) ++ (match f.join with | some j => far s j.toInt | none => [])
    | _ => []

/-- Whether an instruction opens a basic block. -/
def opensBlock (entries : List Nat) (s : Source) : Bool := entries.contains s.at_

/-- Whether each instruction may be moved within its block: calm, and not the one that `rpt` repeats. -/
def calmOf (g : Gang) : Bool → List Source → List Bool
  | _, [] => []
  | rpt, s :: ss =>
    (!rpt && match s.view with | some v => v.calm g | none => false) :: calmOf g (match s.view with | some (.cq _) => true | _ => false) ss

/-- The run of movable instructions of one block in which each instruction stands, by a number; another instruction stands alone, and so does
one at which control may enter. -/
def moveRuns (entries : List Nat) : Nat → Bool → List (Source × Bool) → List Nat
  | _, _, [] => []
  | n, calm, x :: xs =>
    let m := if calm && x.2 && !opensBlock entries x.1 then n else n + 1
    m :: moveRuns entries m (x.2 && !opensBlock entries x.1) xs

/-! ## Whether a plan keeps the bounds of R409 -/

/-- The portable instructions of a plan, in its order. -/
def planOrder (ps : List Config.Planned) : List Nat :=
  ps.filterMap fun p => match p with | .instr _ j _ _ _ => some j | _ => none

/-- Whether an order of the instructions keeps that of the text but for moves within a run that keep every register dependence. -/
def orderOk (g : Gang) (ss : List Source) (runs : List Nat) : List Nat → Bool
  | [] => true
  | j :: js =>
    (js.all fun i => j < i || (runs.getD i 0 = runs.getD j 0 && match ss[i]?.bind (·.view), ss[j]?.bind (·.view) with
      | some v, some w => !(v.ordered g w)
      | _, _ => false)) && orderOk g ss runs js

/-- What is known at a place of a plan: the least cycle of the next issue; by when every result of an instruction that is not calm has landed;
results of calm ones in flight, by code; the lane values that l0 and l1 hold; the v registers that o registers copy; whether `rpt` stands
right before. -/
structure Known where
  now : Nat
  all : Nat
  pend : List (Nat × Nat)
  last : List (Option (Nat × Nat))
  copies : List (Nat × Nat)
  rpt : Bool
  deriving DecidableEq, Repr

/-- Whether every result in flight has landed. -/
def Known.landed (k : Known) : Bool := k.all ≤ k.now && k.pend.all fun p => p.2 ≤ k.now

/-- Whether a source field may be replaced by an o or l code: the code holds the value of the v register that the field names. -/
def Known.holds (k : Known) (code regs : Nat) : Option Nat → Bool
  | none => true
  | some x => code < 256 &&
    if x = 344 || x = 345 then match (k.last.getD (x - 344) none) with | some y => y.1 = code && regs ≤ y.2 | none => false
    else regs = 1 && k.copies.contains (x - 336, code) && 336 ≤ x

/-- A value by which a register is known no longer stands once the register is written. -/
def Known.forget (k : Known) (codes : List Nat) : Known :=
  { k with
    last := k.last.map fun y => match y with
      | some z => if codes.any fun c => z.1 ≤ c && c < z.1 + z.2 then none else some z
      | none => none
    copies := k.copies.filter fun y => !(codes.contains y.2 || codes.contains (336 + y.1)) }

/-- What is known after a calm instruction; none where it would issue before a source has landed, or write a register no later than an
earlier result for it lands (R33, R37). -/
def Known.calm (g : Gang) (v : View) (stall : Nat) (k : Known) : Option Known :=
  let lat := (fixedLat v.op).getD 0
  if k.all ≤ k.now && (v.reads g).all (fun c => k.pend.all fun p => p.1 != c || p.2 ≤ k.now) &&
      (v.writes g).all (fun c => k.pend.all fun p => p.1 != c || p.2 < k.now + lat) then
    let k' := k.forget (v.writes g)
    let shift := match v.laneValue with
      | some _ => [(344, k.pend.foldl (fun m p => if p.1 = 344 then max m p.2 else m) (k.now + lat))]
      | none => []
    some { k' with
      now := k.now + 1 + stall
      pend := k.pend ++ ((v.writes g).map fun c => (c, k.now + lat)) ++ shift
      last := match v.laneValue with | some y => [some y, k'.last.getD 0 none] | none => k'.last }
  else none

/-- What is known after an instruction that is not calm, op its opcode: it waits for all results, and nothing is known of l and o after it. -/
def Known.other (op stall : Nat) (rpt : Bool) (k : Known) : Option Known :=
  if k.landed then
    some { now := k.now + 1 + stall
           all := (if mayBlock op then k.now + 1 + stall else k.now) + landBound op
           pend := [], last := [], copies := [], rpt := rpt }
  else none

/-- `nop` and the `mov` to an o register that Oliesh inserts. -/
def nopView (stall : Nat) : View :=
  .cf 0x01 { h := { n := false, g := 0, stall := BitVec.ofNat 4 stall, region := false }, d := 0, a := 0, b := 0, c := 0, minor := 0, lit := .none }
def movView (stall m n : Nat) : View :=
  .cf 0x59 { h := { n := false, g := 0, stall := BitVec.ofNat 4 stall, region := false }, d := BitVec.ofNat 9 (336 + m), a := BitVec.ofNat 9 n
             b := 0, c := 0, minor := 0, lit := .none }

/-- Whether the replacements of an instruction are ones of source fields, each holding the value it replaces. -/
def Known.allows (k : Known) (a b c : Option Nat) : View → Bool
  | .cf op f =>
    let sh := opShape op f
    k.holds f.a.toNat sh.a.regs a && k.holds f.b.toNat sh.b.regs b && k.holds f.c.toNat sh.c.regs c
  | _ => a.isNone && b.isNone && c.isNone

/-- What is known after one word of a plan; none where it breaks R409 or may fall short. -/
def planStep (g : Gang) (ss : List Source) (calm : List Bool) (entries : List Nat) (k : Known) : Config.Planned → Option Known
  | .nop st => if k.rpt || st > 15 then none else some { k with now := k.now + 1 + st }
  | .mov st m n =>
    if k.rpt || st > 15 || m ≥ 8 || n ≥ g.kn.regs then none
    else (k.calm g (movView st m n) st).map fun k => { k with copies := (m, n) :: k.copies }
  | .instr st j a b c =>
    match ss[j]? with
    | none => none
    | some s =>
      let k := if opensBlock entries s then { k with last := [], copies := [] } else k
      if st > 15 || (opensBlock entries s && !k.landed) then none
      else match s.view with
        | none => if (a.isNone && b.isNone && c.isNone) then k.other 0 0 false else none
        | some v =>
          if calm.getD j false then
            let w := v.replace a b c
            if k.allows a b c v && w.faults.isEmpty then k.calm g w st else none
          else if (a.isNone && b.isNone && c.isNone) && (!k.rpt || min 15 (landBound v.op - 1) ≤ st) then
            k.other v.op st (match v with | .cq _ => true | _ => false)
          else none

/-- What is known after a plan. -/
def planRun (g : Gang) (ss : List Source) (calm : List Bool) (entries : List Nat) : Known → List Config.Planned → Option Known
  | k, [] => some k
  | k, p :: ps => (planStep g ss calm entries k p).bind fun k => planRun g ss calm entries k ps

/-- Whether a plan for a kernel keeps the bounds of R409 and its STALL counts never fall short (R39). -/
def planOk (g : Gang) (entries : List Nat) (ss : List Source) (ps : List Config.Planned) : Bool :=
  let js := planOrder ps
  let calm := calmOf g false ss
  js.length = ss.length && js.all (fun j => j < ss.length) && js.Nodup && orderOk g ss (moveRuns entries 0 false (ss.zip calm)) js &&
  (planRun g ss calm entries { now := 0, all := 0, pend := [], last := [], copies := [], rpt := false } ps).isSome

/-- `nop` words that cover n cycles. -/
def coverBy : Nat → Nat → List Config.Planned
  | 0, _ => []
  | m + 1, n => if n = 0 then [] else .nop (min 16 n - 1) :: coverBy m (n - 16)

/-- The plan that moves and replaces nothing: after each instruction its results land. -/
def plainPlan (ss : List Source) : List Config.Planned :=
  ss.zipIdx.flatMap fun x => match x.1.view with
    | none => [.instr 0 x.2 none none none]
    | some v =>
      let n := landBound v.op
      let rest := if mayBlock v.op then n else n - 16
      .instr (min 15 (n - 1)) x.2 none none none :: match v with | .cq _ => [] | _ => coverBy rest rest

/-- The plan of kernel i: Oliesh's own where it keeps the bounds. -/
def planOf (rev : List Byte) (free : Bool) (labels : List Nat) (o : List Byte) (i : Nat) : List Config.Planned :=
  let ss := sourcesOf o i
  let own := Config.oliesh rev o i
  if free && planOk (.ofRegs (objRegs o i)) (entriesOf labels o i ss) ss own then own else plainPlan ss

/-! ## Laying out -/

/-- One instruction of native text before its offsets are rewritten: the portable offset it comes from, none for an inserted one. -/
structure Piece where
  src : Option Nat
  raw : List W32
  view : Option View
  deriving DecidableEq, Repr

/-- Its length in bytes. -/
def Piece.size (p : Piece) : Nat := match p.view with | some v => v.length | none => 4 * p.raw.length

/-- The instruction that a word of a plan stands for, its labels not yet rewritten but in their places: known tells whether a value is the
offset of an instruction. -/
def Piece.ofPlan (o : List Byte) (known : Nat → Bool) (ss : List Source) : Config.Planned → Piece
  | .nop st => { src := none, raw := [], view := some (nopView st) }
  | .mov st m n => { src := none, raw := [], view := some (movView st m n) }
  | .instr st j a b c => match ss[j]? with
    | none => { src := none, raw := [], view := none }
    | some s =>
      { src := some s.at_, raw := s.raw
        view := s.view.map fun v => ((v.relabel (Config.codeLabel o s.at_) fun x => if known x then some x else none).replace a b c).setStall st }

/-- The instructions with their native offsets from nat on. -/
def placePieces : Nat → List Piece → List (Nat × Piece)
  | _, [] => []
  | nat, p :: ps => (nat, p) :: placePieces (nat + p.size) ps

/-- A kernel laid out: its portable range, its native range, its instructions. -/
structure Laid where
  range : Nat × Nat
  nat : Nat
  len : Nat
  pieces : List (Nat × Piece)
  deriving DecidableEq, Repr

/-- The native offset of a portable code address of the kernel: that of the instruction there, or of the end. -/
def Laid.find (k : Laid) (a : Nat) : Option Nat :=
  if a = k.range.1 + k.range.2 then some (k.nat + k.len) else (k.pieces.find? fun p => p.2.src = some a).map (·.1)

/-- The native offset of a code label used in a kernel: its own label, else one of another kernel. -/
def findLabel (own : Laid) (all : List Laid) (a : Nat) : Option Nat :=
  match own.find a with | some n => some n | none => all.findSome? fun k => k.find a

/-- The native offset of an entry or handler: as far into an instruction as the portable one, beyond the text where it lies in none. -/
def Laid.entry (k : Laid) (out a : Nat) : Nat :=
  match k.find a with
  | some n => n
  | none => (((k.pieces.filter fun p => match p.2.src with | some b => b ≤ a && a < b + p.2.size | none => false).head?).map fun p =>
      p.1 + (a - p.2.src.getD a)).getD out

/-- The kernels of an object one after the other in native text. -/
def layKernels (o : List Byte) (known : Nat → Bool) (plan : Nat → List Config.Planned) : Nat → Nat → Nat → List Laid
  | 0, _, _ => []
  | n + 1, i, nat =>
    let ps := (plan i).map (Piece.ofPlan o known (sourcesOf o i))
    let len := (ps.map Piece.size).sum
    { range := objRange o i, nat := nat, len := len, pieces := placePieces nat ps } :: layKernels o known plan n (i + 1) (nat + len)

/-- A portable distance in units from an instruction, as a native one: a target outside the kernel's range gets the native offset out. -/
def Laid.go (k : Laid) (out nat at_ : Nat) (d : Int) : Int :=
  let t : Int := at_ + 4 * d
  let inside : Option Nat := if (k.range.1 : Int) ≤ t && t < ((k.range.1 + k.range.2 : Nat) : Int) then k.find t.toNat else none
  (((inside.getD out : Nat) : Int) - nat) / 4

/-- Whether branch and join offsets fit their fields (R55). -/
def Laid.fits (k : Laid) (out : Nat → Nat) : Bool :=
  k.pieces.all fun p => match p.2.src, p.2.view with
    | some a, some (.cj op f) =>
      let go := k.go (out a) p.1 a
      (!(jForm op).2.1 || (-(2 ^ 26) ≤ go f.off.toInt && go f.off.toInt < 2 ^ 26)) &&
      (match f.join with | some j => -(2 ^ 31) ≤ go j.toInt && go j.toInt < 2 ^ 31 | none => true)
    | _, _ => true

/-- The native units of an instruction: branch and join offsets and code labels rewritten (R409). -/
def Laid.emit (k : Laid) (o : List Byte) (all : List Laid) (out : Nat → Nat) (p : Nat × Piece) : List W32 :=
  match p.2.view with
  | none => p.2.raw
  | some v => match p.2.src with
    | none => v.encode
    | some a =>
      let go := k.go (out a) p.1 a
      match v with
      | .cj op f =>
        (View.cj op { f with
          off := if (jForm op).2.1 then BitVec.ofInt 27 (go f.off.toInt) else f.off
          join := f.join.map fun j => BitVec.ofInt 32 (go j.toInt) }).encode
      | v => (v.relabel (Config.codeLabel o a) (findLabel k all)).encode

/-- The bytes of units. -/
def unitBytes (us : List W32) : List Byte := us.flatMap fun u => leBytes 4 u.toNat

/-- The code labels that an object uses as operand values. -/
def objLabels (o : List Byte) : List Nat :=
  (List.range (le o 20 4)).flatMap fun i => (sourcesOf o i).flatMap fun s => match s.view with
    | none => []
    | some v => (v.operands.filter fun x => Config.codeLabel o s.at_ x.1).filterMap fun x =>
        if x.2 = 384 || x.2 = 385 then some v.lit.value else if 352 ≤ x.2 && x.2 ≤ 367 then some (x.2 - 352) else none

/-- An object laid out: with Oliesh's own plans where every offset then fits its field, else with plain ones. -/
def layObject (rev o : List Byte) : List Laid :=
  let n := le o 20 4
  let labels := objLabels o
  let known (x : Nat) : Bool := (List.range n).any fun i => (objBounds o i).contains x || x = (objRange o i).1 + (objRange o i).2
  let lay (free : Bool) : List Laid := layKernels o known (planOf rev free labels o) n 0 0
  let ks := lay true
  let end_ := (ks.map (·.len)).sum
  if ks.zipIdx.all fun k => k.1.fits fun a => end_ + 4 * Config.olieshOut rev o k.2 a then ks else lay false

/-! ## Sections (R410) -/

/-- A text padded with zero bytes to a multiple of 16. -/
def padded (text : List Byte) : List Byte := text ++ List.replicate ((16 - text.length % 16) % 16) 0

/-- The native section that the device writes and signs (R410, R411). -/
def nativeSection (m : Mgmt) (o : List Byte) (entries : List (Nat × Nat)) (text : List Byte) : List Byte :=
  let tail := (entries.flatMap fun e => leBytes 4 e.1 ++ leBytes 4 e.2) ++ padded text
  let head := leBytes 4 0x4B434E54 ++ leBytes 4 text.length ++ revid m ++ leBytes 8 (le o 8 8) ++ leBytes 4 (le o 16 4) ++ leBytes 4 (le o 20 4) ++
    exactly 32 (sha256 (objText o ++ objTable o ++ objData o)) ++ exactly 32 (sha256 tail) ++ leBytes 8 0
  head ++ exactly 384 (Config.installSign head) ++ certBytes m 2 Config.installModulus ++ exactly 384 Config.rootModulus ++
  List.replicate 128 0 ++ tail

/-- The code object of a native-source object: its text as it stands (R412). -/
def CodeObj.copied (m : Mgmt) (id : Nat) (o : List Byte) : CodeObj :=
  let ks := List.range (le o 20 4)
  { id := id, handle := le o 8 8, version := le o 16 4, live := true, obj := o
    native := nativeSection m o (ks.map (objEntry o)) (objText o), ranges := ks.map (objRange o), waits := false }

/-- The code object of Oliesh's translation (R409). -/
def CodeObj.translated (m : Mgmt) (id : Nat) (o : List Byte) : CodeObj :=
  let rev := revid m
  let ks := layObject rev o
  let end_ := (ks.map (·.len)).sum
  let text := ks.zipIdx.flatMap fun k => k.1.pieces.flatMap (k.1.emit o ks fun a => end_ + 4 * Config.olieshOut rev o k.2 a)
  let label (k : Laid) (a : Nat) : Nat := if a = 0xFFFFFFFF then a else k.entry end_ a
  { id := id, handle := le o 8 8, version := le o 16 4, live := true, obj := o
    native := nativeSection m o (ks.zipIdx.map fun k => (label k.1 (objEntry o k.2).1, label k.1 (objEntry o k.2).2)) (unitBytes text)
    ranges := ks.map fun k => (k.nat, k.len), waits := true }

end Sys2Proof.Machine
end

