-- ==== Sys2Proof/Machine/Install.lean ====
section
/-! DEFINITION. Code objects (spec/22 R405 to R416) and attestation (spec/23 R421): INSTALL_PACKET, REMOVE_HANDLE, QUERY_QUOTE,
QUERY_IDENTITY and QUERY_REVISION. -/
namespace Sys2Proof.Machine

open Sys2Proof

/-! ## The container (R405, R406) -/

/-- The offset of the first check that fails, the least of them. -/
def firstBad (cs : List (Nat × Bool)) : Option Nat :=
  match (cs.filter fun c => !c.2).map (·.1) with
  | [] => none
  | b :: bs => some (bs.foldl min b)

/-- A section of a container: offset of its header field, first byte and length; none for an absent native section (R405). -/
def sectionsOf (o : List Byte) : List (Nat × Nat × Nat) :=
  let sec (f : Nat) : Nat × Nat × Nat := (f, le o f 4, le o (f + 4) 4)
  [sec 24, sec 32, sec 40] ++ if le o 48 4 = 0 && le o 52 4 = 0 then [] else [sec 48]

/-- Whether a section keeps the rules of R405 beside those before it. -/
def sectionOk (len : Nat) (x : Nat × Nat × Nat) (before : List (Nat × Nat × Nat)) : Bool :=
  x.2.1 % 16 = 0 && x.2.1 + x.2.2 ≤ len &&
  before.all fun y => x.2.2 = 0 || y.2.2 = 0 || x.2.1 + x.2.2 ≤ y.2.1 || y.2.1 + y.2.2 ≤ x.2.1

/-- Checks of the sections in turn. -/
def sectionChecks (len : Nat) : List (Nat × Nat × Nat) → List (Nat × Nat × Nat) → List (Nat × Bool)
  | [], _ => []
  | x :: xs, before => (x.1, sectionOk len x before) :: sectionChecks len xs (before ++ [x])

/-- Checks of the header (R405). -/
def headerChecks (o : List Byte) : List (Nat × Bool) :=
  let checks : List (Nat × Bool) :=
    [(0, o.length ≥ 256 && le o 0 4 = 0x4B434F42), (4, le o 4 4 = 1), (8, le o 8 8 != 0), (20, 1 ≤ le o 20 4 && le o 20 4 ≤ 256),
     (28, le o 28 4 = 576 * le o 20 4), (36, le o 36 4 % 4 = 0 && le o 36 4 ≥ 8), (56, le o 56 4 < 2), (60, le o 60 196 = 0)]
  checks ++ sectionChecks o.length (sectionsOf o) []

/-- Whether a portable code address is a code label of the kernel (R14, R15): where an instruction of its text begins, or the text's end. -/
def kernelLabel (text : List Byte) (first len a : Nat) : Bool :=
  a = first + len || (boundsFrom text (first + len) (len / 8 + 1) first).contains a

/-- Checks of a kernel table entry e at offset b of the object (R15, R348, R406). A channel may name cohorts that the cluster has not: no rule
refuses it (DESIGN CHOICE, log 20). -/
def entryChecks (text : List Byte) (dtlen b : Nat) (e : List Byte) : List (Nat × Bool) :=
  let r := e.drop 32
  let zero (off n : Nat) : Nat × Bool := (b + 32 + off, le r off n = 0)
  let ranges : List (Nat × Bool) :=
    [(b + 4, le e 4 4 = 0xFFFFFFFF || kernelLabel text (le e 8 4) (le e 12 4) (le e 4 4)), (b + 8, le e 8 4 + le e 12 4 ≤ text.length),
     (b + 16, le e 16 4 + le e 20 4 ≤ dtlen), (b + 24, le e 24 8 = 0)]
  let bars := (List.range 16).flatMap fun j =>
    let used : Bool := j < le e 62 1
    [(b + 160 + 8 * j, (used || le e (160 + 8 * j) 4 = 0 : Bool)), (b + 164 + 8 * j, used != (le e (164 + 8 * j) 4 = 0 : Bool))]
  let blanks := (List.range 16).flatMap fun j =>
    let c := 288 + 16 * j
    [(b + c + 3, (le e (c + 3) 1 = 0 : Bool)), (b + c + 12, (le e (c + 12) 4 = 0 : Bool))]
  let chans := (List.range (min 16 (le e 63 1))).flatMap fun j =>
    let c := 288 + 16 * j
    [(b + c + 2, (1 ≤ le e (c + 2) 1 && le e (c + 2) 1 ≤ 64 : Bool)), (b + c + 4, (64 ≤ le e (c + 4) 4 && le e (c + 4) 4 ≤ 8192 : Bool))]
  ranges ++ [zero 0 8, zero 40 8, zero 48 8, zero 56 8, zero 64 4] ++
  ((templateChecks (r.take 128)).map fun c => (b + 32 + c.1, c.2)) ++ bars ++ blanks ++ chans

/-- The offset at which a container breaks R405 or R406. -/
def objectBad (o : List Byte) : Option Nat :=
  match firstBad (headerChecks o) with
  | some d => some d
  | none =>
    let kt := le o 24 4
    firstBad ((List.range (le o 20 4)).flatMap fun i =>
      entryChecks (objText o) (le o 44 4) (kt + 576 * i) ((o.drop (kt + 576 * i)).take 576))

/-! ## Portable text (R407) -/

/-- Whether the word at an offset holds a STALL count, or an o or l code in an operand field (R407). -/
def stallWord (text : List Byte) (a : Nat) : Bool :=
  match unitsAt text a with
  | lo :: hi :: _ =>
    let w := baseWord lo hi
    let op := wordOp w
    let ol (c : Nat) : Bool := 336 ≤ c && c ≤ 345
    let field (q : Pos) (c : BitVec 9) : List Nat := if q.isOperand then [c.toNat] else []
    let codes : List Nat :=
      if isJ op then field (jForm op).1 (wordJ w).d
      else if isS op then field (sForm op).1 (wordS w).d ++ field (sForm op).2 (wordS w).a
      else if op = 0x0B then []
      else operandCodes (opShape op (wordFields w)) (wordFields w)
    (wordHdr w).stall != 0 || codes.any ol
  | _ => false

/-- The target of a branch with an offset at a code address (R55). -/
def branchTo (text : List Byte) (a : Nat) : Option Int :=
  match unitsAt text a with
  | lo :: hi :: _ =>
    let w := baseWord lo hi
    let op := wordOp w
    if isJ op && (jForm op).2.1 then some ((a : Int) + 4 * (wordJ w).off.toInt) else none
  | _ => none

/-- The code address of the first word of a kernel's range that breaks R407; a native-source object is checked for targets only (R412). -/
def rangeBad (native : Bool) (text : List Byte) (first len : Nat) : Option Nat :=
  let bs := boundsFrom text (first + len) (len / 8 + 1) first
  bs.find? fun a => (!native && stallWord text a) || match branchTo text a with
    | some t => decide ((first : Int) ≤ t) && decide (t < ((first + len : Nat) : Int)) && !(bs.any fun b => (b : Int) = t)
    | none => false

/-- The offset in the object of a word that breaks R407: the least over the kernels. -/
def textBad (o : List Byte) : Option Nat :=
  let pt := le o 32 4
  let bad := (List.range (le o 20 4)).filterMap fun i => rangeBad (le o 56 4 = 1) (objText o) (objRange o i).1 (objRange o i).2
  match bad with
  | [] => none
  | b :: bs => some (pt + bs.foldl min b)

/-! ## Native sections (R410, R411) -/

/-- Whether the device accepts a certificate of role r: its layout and its root signature (R411). -/
def certOk (m : Mgmt) (role : Nat) (root cert : List Byte) : Bool :=
  le cert 0 4 = 0x4B434345 && le cert 4 4 = role && (cert.drop 8).take 32 = revid m && le cert 40 88 = 0 && le cert 896 128 = 0 &&
  pssVerify root (cert.take 512) ((cert.drop 512).take 384)

/-- Whether the device accepts a native section of an object (R411). -/
def nativeOk (m : Mgmt) (o n : List Byte) : Bool :=
  let root := (n.drop 1536).take 384
  let cert := (n.drop 512).take 1024
  let len := le n 4 4
  n.length ≥ 2048 && le n 0 4 = 0x4B434E54 && len % 4 = 0 && n.length = 2048 + 8 * le o 20 4 + (len + 15) / 16 * 16 &&
  le n 40 8 = le o 8 8 && le n 48 4 = le o 16 4 && le n 52 4 = le o 20 4 && le n 120 8 = 0 && le n 1920 128 = 0 &&
  (n.drop 8).take 32 = revid m && (n.drop 56).take 32 = sha256 (objText o ++ objTable o ++ objData o) &&
  (n.drop 88).take 32 = sha256 (n.drop 2048) && sha256 root = rootKeyHash && certOk m 2 root cert &&
  pssVerify ((cert.drop 128).take 384) (n.take 128) ((n.drop 128).take 384)

/-- The native section that a container carries (R405, R410); empty where it carries none. -/
def carried (o : List Byte) : List Byte := (o.drop (le o 48 4)).take (le o 52 4)

/-- The code object that an install publishes (R409, R411, R412): a native-source object's text unchanged, the container's native section if it
is accepted, else a translation. Which part of an accepted section's text is which kernel's it does not say: each kernel has all of it
(log 6). -/
def CodeObj.ofBytes (m : Mgmt) (id : Nat) (o : List Byte) : CodeObj :=
  if le o 56 4 = 1 then .copied m id o
  else if nativeOk m o (carried o) then
    { id := id, handle := le o 8 8, version := le o 16 4, live := true, obj := o, native := carried o
      ranges := List.replicate (le o 20 4) (0, le (carried o) 4 4), waits := true }
  else .translated m id o

/-- A length rounded up to 4 KiB (R414). -/
def pages (n : Nat) : Nat := (n + 4095) / 4096 * 4096

/-- The room that an object takes in the code heap (R414). -/
def CodeObj.room (o : CodeObj) : Nat := pages o.native.length + pages (le o.obj 44 4)

/-! ## Installing (R408, R414, R415) -/

/-- Why an install is refused: code and detail, in the order of R408. -/
def State.installRefusal (s : State) (n : Nat) (o : List Byte) : Option (Nat × Nat) :=
  let p := s.part n
  match objectBad o with
  | some d => some (8, d)
  | none =>
    let x := CodeObj.ofBytes s.mg s.nextId o
    if x.isNative && !p.natok then some (0xC, 56)
    else match textBad o with
      | some d => some (9, d)
      | none =>
        match p.object x.handle with
        | some old =>
          if x.version ≤ old.version then some (0xB, 16)
          else if (p.objs.map CodeObj.room).sum + x.room > p.heap then some (0xA, 0) else none
        | none => if (p.objs.map CodeObj.room).sum + x.room > p.heap then some (0xA, 0) else none

/-- A handle is unpublished: versions that launches bind stay (R415). -/
def State.unpublish (s : State) (n handle : Nat) : State :=
  let p := s.part n
  (s.setPart n { p with objs := p.objs.map fun o => if o.handle = handle then { o with live := false } else o }).freeCode n

/-- INSTALL_PACKET (R408, R414): the object is read once, checked, and published in one step; M2 is extended (R420). -/
def execInstallPacket (n q : Nat) (s : State) : Answer :=
  match s.atWork n q 4 with
  | none => .next s
  | some p =>
    let len := p.body1 % 2 ^ 32
    if len = 0 then .next s
    else
      let v := s.hubTouch s n p.pasid p.body0 len
      match s.hubGet n p.pasid p.body0 len with
      | .error _ => .next (v.refuse n q p.seq 4 0)
      | .ok o =>
        match s.installRefusal n o with
        | some (c, d) => .next (v.refuse n q p.seq c d)
        | none =>
          let s := v
          let x := CodeObj.ofBytes s.mg s.nextId o
          let s := s.unpublish n x.handle
          let s := { s.setPart n { s.part n with objs := (s.part n).objs ++ [x] } with nextId := s.nextId + 1 }
          .next ((s.extend 2 (revid s.mg ++ sha256 o)).worked n q p.seq true)

/-- REMOVE_HANDLE (R415). -/
def execRemoveHandle (n q : Nat) (s : State) : Answer :=
  match s.atWork n q 4 with
  | none => .next s
  | some p =>
    if p.body1 % 2 ^ 32 != 0 then .next s else .next ((s.unpublish n p.body0).worked n q p.seq true)

/-! ## Queries (R421) -/

/-- The bytes of a quote: registers, nonce, REVID and the signature over them (R421). -/
def State.quote (s : State) (nonce : List Byte) : List Byte :=
  let body := s.mg.meas.flatten ++ nonce ++ revid s.mg
  body ++ exactly 384 (Config.identitySign body)

/-- A query writes its output through the packet's PASID, or is refused with RECORD_FAULT (R346, R421). -/
def State.answerQuery (s : State) (n q : Nat) (p : Pkt) (bs : List Byte) : State :=
  match s.storeVirt n p.pasid p.body1 bs with
  | .ok s' => s'.triggerAll.worked n q p.seq true
  | .error _ => s.refuse n q p.seq 4 0

/-- QUERY_QUOTE (R421); another QKIND is refused with RECORD_INVALID. -/
def execQueryQuote (n q : Nat) (s : State) : Answer :=
  match s.atWork n q 5 with
  | none => .next s
  | some p =>
    match p.body0 % 256 with
    | 1 =>
      let v := s.hubTouch s n p.pasid (p.body0 / 256 * 256) 32
      match s.hubGet n p.pasid (p.body0 / 256 * 256) 32 with
      | .ok nonce => .next (v.answerQuery n q p (v.quote nonce))
      | .error _ => .next (v.refuse n q p.seq 4 0)
    | 2 | 3 => .next s
    | _ => .next (s.refuse n q p.seq 5 48)

/-- QUERY_IDENTITY (R421). -/
def execQueryIdentity (n q : Nat) (s : State) : Answer :=
  match s.atWork n q 5 with
  | none => .next s
  | some p => .next (if p.body0 % 256 = 2 then s.answerQuery n q p (certBytes s.mg 1 Config.identityModulus) else s)

/-- QUERY_REVISION (R419, R421). -/
def execQueryRevision (n q : Nat) (s : State) : Answer :=
  match s.atWork n q 5 with
  | none => .next s
  | some p => .next (if p.body0 % 256 = 3 then s.answerQuery n q p (revisionRecord s.mg) else s)

end Sys2Proof.Machine
end

