-- ==== Sys2Proof/Machine/Manage.lean ====
section
/-! DEFINITION. Bring-up, the management space, power and Equinox (spec/23 R418 to R424, spec/17 R360): POWER_UP, BOOT_IMAGE_WRITE,
NODE_WORD_WRITE, BOOT_STATUS_WRITE, IMAGE_VERIFIED, REGISTER_WRITE, PORTEN_WRITE, EXTEND, PARTITION_SETUP, EQUINOX_CLOCK_CHANGE and
THERMAL_THROTTLE; and HOST_MEMORY_REQUEST, a packet of another node whatever it asks for (spec/21 R393, R396, R398, R402). -/
namespace Sys2Proof.Machine

open Sys2Proof

/-! ## Boot (R418) -/

/-- POWER_UP (R418): everything is as after power-up; what the surroundings do next stands. -/
def execPowerUp (s : State) : Answer := .next { State.reset with draws := s.draws, inputs := s.inputs }

/-- Who sends a write to the boot ROM or the management space, in a step of its own: its slack is a free value (log 4). -/
def State.writer (s : State) (src space la : Nat) : Asker :=
  { part := 4, own := s.mg.mnode, src := src, pasid := 0, space := space, kind := 4, la := la, slack := s.freeSlack la, late := false, bg := false }

/-- Whether the boot ROM takes an image and a node word. -/
def Mgmt.awaitsImage (m : Mgmt) : Bool := m.status = 0 || m.status = 3

/-- A write of bytes into the image window: refused while an image is being verified or runs, and where it is not 64 bytes of the window. -/
def State.bootImage (s : State) (q : Asker) (off : Nat) (bytes : List Byte) : State :=
  if s.mg.awaitsImage && bytes.length = 64 && off + 64 ≤ windowLen then
    ({ s with mg := { s.mg with window := s.mg.window.writeN off bytes } } : State).replied q 0 []
  else s.replied q codeRefusedFormat []

/-- A write of the node word. -/
def State.nodeWord (s : State) (q : Asker) (v : Nat) : State :=
  if s.mg.awaitsImage then
    ({ s with mg := { s.mg with mnode := bits v 0 12, hnode := bits v 16 12, nodeWritten := true } } : State).replied q 0 []
  else s.replied q codeRefusedFormat []

/-- A write of the status word: 1 starts verification; without a node word the writer is HNODE and MNODE is 0. -/
def State.bootStatus (s : State) (q : Asker) (v : Nat) : State :=
  if v = 1 && s.mg.awaitsImage then
    let m := if s.mg.nodeWritten then s.mg else { s.mg with mnode := 0, hnode := q.src }
    ({ s with mg := { m with status := 1 } } : State).replied q 0 []
  else s.replied q 0 []

/-- BOOT_IMAGE_WRITE (R418). -/
def execBootImageWrite (off : Nat) (bytes : Sent (List Byte)) (s : State) : Answer :=
  .next (s.bootImage (s.writer bytes.src 0 off) off bytes.what)

/-- NODE_WORD_WRITE (R418): accepted while the status is 0 or 3. -/
def execNodeWordWrite (value : Sent (BitVec 64)) (s : State) : Answer :=
  .next (s.nodeWord (s.writer value.src 0 0x1000008) value.what.toNat)

/-- BOOT_STATUS_WRITE (R418). -/
def execBootStatusWrite (src : Nat) (value : BitVec 64) (s : State) : Answer :=
  .next (s.bootStatus (s.writer src 0 0x1000000) value.toNat)

/-- IMAGE_VERIFIED (R418, R420): M0 is reset and extended by the image's digest, and the module runs; or the image is refused and the
window is cleared. -/
def execImageVerified (s : State) : Answer :=
  if s.mg.status != 1 then .next s
  else if imageGood s.mg.image then
    let s : State := { s with mg := { s.mg with status := 2, porten := 0xFFFF, meas := s.mg.meas.set 0 (List.replicate 32 0) } }
    .next (s.extend 0 (sha256 s.mg.image))
  else .next { s with mg := { s.mg with status := 3, window := [] } }

/-- A packet that reaches port 0 in boot mode: the three kinds of access, or a refusal (R418). -/
def State.bootRequest (s : State) (q : Asker) (r : HostReq) : State :=
  let plain := r.zero = 0 && r.space = 0 && r.ord ≤ 4
  match r.op with
  | .read =>
    if plain && r.addr = 0x1000000 && r.len = 8 then s.replied q 0 (leBytes 8 s.mg.status) else s.replied q codeRefusedFormat []
  | .write =>
    let bytes := exactly r.len r.data
    if plain && r.len = 64 then s.bootImage q r.addr bytes
    else if plain && r.len = 8 && r.addr = 0x1000000 then s.bootStatus q (leNat bytes)
    else if plain && r.len = 8 && r.addr = 0x1000008 then s.nodeWord q (leNat bytes)
    else s.replied q codeRefusedFormat []
  | .atomic _ => s.replied q codeRefusedFormat []

/-! ## The words of the management space (R424) -/

/-- Whether the management space answers a node: the module runs, and the node is HNODE. -/
def State.manages (s : State) (src : Nat) : Bool := s.mg.status = 2 && src = s.mg.hnode

/-- A management write, answered to its writer: f answers none where it is refused. -/
def State.manage (s : State) (q : Asker) (f : State → Option State) : State :=
  if !(s.manages q.src) then s.replied q codeRefusedFormat []
  else match f s with
    | some s' => s'.replied q 0 []
    | none => s.replied q codeRefusedFormat []

/-- PORTEN written (R394). -/
def State.setPorten (s : State) (v : Nat) : Option State := some { s with mg := { s.mg with porten := bits v 0 16 } }

/-- Register i from 3 to 7 is extended by the staged digest (R420). -/
def State.extendStaged (s : State) (i : Nat) : Option State := if 3 ≤ i && i ≤ 7 then some (s.extend i s.mg.staged) else none

/-- A module-wide word written: the power and temperature limits, PORTEN, the staged digest and its index; other words ignore writes. -/
def State.setRegister (s : State) (off v : Nat) : Option State :=
  if off % 8 != 0 then none
  else if off = 0 then if 500 ≤ v && v ≤ 3000 then some { s with mg := { s.mg with power := v } } else none
  else if 8 ≤ off && off < 0x28 then some { s with mg := { s.mg with temps := s.mg.temps.set (off / 8 - 1) v } }
  else if off = 0x40 then s.setPorten v
  else if 0x300 ≤ off && off < 0x320 then
    some { s with mg := { s.mg with staged := s.mg.staged.take (off - 0x300) ++ leBytes 8 v ++ s.mg.staged.drop (off - 0x300 + 8) } }
  else if off = 0x320 then s.extendStaged v
  else some s

/-- Whether a die mask is one of R403. -/
def diesOk (d : Nat) : Bool := [1, 2, 4, 8, 3, 12, 15].contains d

/-- Whether a partition holds nothing: no packet, no launch that goes on and no cohort (R424, log 27). -/
def State.partIdle (s : State) (n : Nat) : Bool :=
  (s.part n).queues.all (fun q => q.pkts.isEmpty) && (s.cohortsOfPart n).isEmpty && (s.part n).childq.isEmpty &&
  !(s.launches.any fun l => l.part = n && !l.done)

/-- Whether bytes lie in the HBM of a die mask's dies (R207). -/
def inDies (d a n : Nat) : Bool :=
  ((List.range 4).all fun i => d.testBit i || a + n ≤ 0x2400000000 * i || 0x2400000000 * (i + 1) ≤ a) && a + n ≤ 0x9000000000

/-- Whether a partition may have this shadow band (R404, R424): an empty one too begins in its HBM. -/
def bandOk (dies a n : Nat) : Bool := inDies dies a (max 1 n)

/-- The words of a partition's block (R424). -/
def Part.setup (p : Part) : List Nat :=
  [p.dies + p.node * 16 + (if p.en then 2 ^ 16 else 0), p.sigbase, p.s2root, p.pasidt, p.shadow, p.shlen,
   p.heap + (if p.natok then 2 ^ 32 else 0), p.fmin + p.fmax * 2 ^ 16 + if p.eqen then 2 ^ 32 else 0]

/-- Whether no partition may be given this node: it is MNODE, or another enabled partition's (R424). -/
def State.nodeTaken (s : State) (n node : Nat) : Bool := node = s.mg.mnode || (s.parts.zipIdx).any fun x => x.2 != n && x.1.en && x.1.node = node

/-- Whether another enabled partition owns one of these dies (R403). -/
def State.diesTaken (s : State) (n dies : Nat) : Bool := (s.parts.zipIdx).any fun x => x.2 != n && x.1.en && x.1.dies &&& dies != 0

/-- The first word of a partition's block: an enabled partition begins with its queues reset (R342, R424). -/
def State.setDies (s : State) (n v : Nat) : Option State :=
  let p := s.part n
  let dies := bits v 0 4
  let node := bits v 4 12
  let en := v.testBit 16
  if !(diesOk dies) || s.nodeTaken n node || (en && s.diesTaken n dies) then none
  else
    let q : Part := if en && !p.en then
        { Part.init with sigbase := p.sigbase, s2root := p.s2root, pasidt := p.pasidt, shadow := p.shadow, shlen := p.shlen, heap := p.heap
                         natok := p.natok, fmin := p.fmin, fmax := p.fmax, eqen := p.eqen }
      else p
    some (s.setPart n { q with dies := dies, node := node, en := en })

/-- Another word of a partition's block (R424). -/
def Part.setWord (p : Part) (off v : Nat) : Option Part :=
  match off with
  | 8 => some { p with sigbase := bits v 12 36 * 2 ^ 12 }
  | 16 => some { p with s2root := bits v 12 36 * 2 ^ 12 }
  | 24 => some { p with pasidt := bits v 12 45 * 2 ^ 12 }
  | 32 => if bandOk p.dies (bits v 0 48) p.shlen then some { p with shadow := bits v 0 48 } else none
  | 40 => if bandOk p.dies p.shadow (bits v 0 48) then some { p with shlen := bits v 0 48 } else none
  | 48 => some { p with heap := bits v 0 32, natok := v.testBit 32 }
  | 56 =>
    let lo := bits v 0 16
    let hi := bits v 16 16
    if 800 ≤ lo && lo ≤ 1200 && 800 ≤ hi && hi ≤ 1200 then some { p with fmin := lo, fmax := hi, eqen := v.testBit 32 } else none
  | _ => some p

/-- A word of the block of partition n written, while the partition holds nothing; the setup record extends M1 (R420, R424). -/
def State.setBlock (s : State) (n off v : Nat) : Option State :=
  if n ≥ 4 || off ≥ 0x100 || !(s.partIdle n) || off % 8 != 0 then none
  else
    (if off = 0 then s.setDies n v else ((s.part n).setWord off v).map fun p => s.setPart n p).map fun t =>
      t.extend 1 (Config.setupDigest n (t.part n).setup)

/-- A word of the management space written. -/
def State.manageSet (s : State) (off v : Nat) : Option State :=
  if 0x1000 ≤ off && off < 0x1400 then s.setBlock ((off - 0x1000) / 0x100) (off % 0x100) v else s.setRegister off v

/-- An aligned word of the management space (R424); words that are not listed are free values, and blocks precede the ring (log 27). -/
def State.manageGet (s : State) (off : Nat) : Nat :=
  let open_ := Config.free s.draws (60000 + off) % 2 ^ 64
  if off = 0 then s.mg.power
  else if 8 ≤ off && off < 0x28 then s.mg.temps.getD (off / 8 - 1) 0
  else if off = 0x40 then s.mg.porten
  else if off = 0x100 then s.mg.head
  else if off = 0x108 then s.mg.lost
  else if 0x200 ≤ off && off < 0x300 then leNat (((s.mg.meas.getD ((off - 0x200) / 32) []).drop (off % 32)).take 8)
  else if 0x1000 ≤ off && off < 0x1400 then (s.part ((off - 0x1000) / 0x100)).setup.getD (off % 0x100 / 8) open_
  else if 0x800 ≤ off && off < 0x2800 then leNat (((s.mg.ring.getD ((off - 0x800) / 32) []).drop (off % 32)).take 8)
  else open_

/-- REGISTER_WRITE (R424): a word of the management space; one of a partition's block is that word of the block. -/
def execRegisterWrite (src off : Nat) (value : BitVec 64) (s : State) : Answer :=
  .next (s.manage (s.writer src 2 off) fun s => s.manageSet off value.toNat)

/-- PORTEN_WRITE (R394, R424). -/
def execPortenWrite (src : Nat) (value : BitVec 64) (s : State) : Answer :=
  .next (s.manage (s.writer src 2 0x40) fun s => s.setPorten value.toNat)

/-- EXTEND (R420, R424). -/
def execExtend (src i : Nat) (s : State) : Answer :=
  .next (s.manage (s.writer src 2 0x320) fun s => s.extendStaged i)

/-- PARTITION_SETUP (R420, R424). -/
def execPartitionSetup (src n off : Nat) (value : BitVec 64) (s : State) : Answer :=
  .next (s.manage (s.writer src 2 (0x1000 + 0x100 * n + off)) fun s => s.setBlock n off value.toNat)

/-- A packet for MNODE: an aligned 8-byte access of HNODE to SPACE 2, or a refusal (R393, R424). -/
def State.manageRequest (s : State) (q : Asker) (r : HostReq) : State :=
  if r.zero != 0 || r.ord > 4 || r.space != 2 || r.len != 8 || r.addr % 8 != 0 || !(s.manages q.src) then s.replied q codeRefusedFormat []
  else match r.op with
    | .read => s.replied q 0 (leBytes 8 (s.manageGet r.addr))
    | .write => s.manage q fun s => s.manageSet r.addr (leNat (exactly 8 r.data))
    | .atomic _ => s.replied q codeRefusedFormat []

/-! ## Packets of other nodes (R393, R396, R398, R402) -/

/-- Who asks by a request: the node it names is a partition's, or MNODE. One that arrives with no slack is late (R395). -/
def State.asker (s : State) (r : HostReq) : Asker :=
  { part := min r.part 4, own := if r.part < 4 then (s.part r.part).node else s.mg.mnode, src := r.src, pasid := r.pasid, space := r.space
    kind := match r.op with | .read => 2 | .write => 4 | .atomic _ => 6
    la := r.addr, slack := r.slack, late := r.late || r.slack = 0, bg := r.bg }

/-- HOST_MEMORY_REQUEST (R393, R396, R402): the reply carries the data, or the status of a request that changed nothing. A reply asks for
nothing; in boot mode the ROM answers (R418), at MNODE the management processor (R424), at a partition's node its memory and control space. -/
def execHostMemoryRequest (r : HostReq) (s : State) : Answer :=
  let s : State := { s with draws := s.draws + 1 }
  let q := s.asker r
  if r.resp then .next s
  else if s.mg.status != 2 then .next (s.bootRequest q r)
  else if r.part ≥ 4 then .next (s.manageRequest q r)
  else if !((s.part r.part).en) then .next s
  else match s.hostRefusal r with
    | some c => .next (s.replied q c [])
    | none =>
      if r.space = 2 then .next (s.manageRequest q r)
      else if r.space = 1 then
        match r.op with
        | .read => s.controlAccess q r.part r.addr r.len none
        | .write => s.controlAccess q r.part r.addr r.len (some r.data)
        | .atomic _ => .next (s.replied q codeRefusedFormat [])
      else .next (s.hostMemory q r)

/-! ## Equinox (R360) -/

/-- Whether a pair's clock may change to f MHz in a partition. -/
def Part.clockOk (p : Part) (f : Nat) : Bool := p.fmin ≤ f && f ≤ p.fmax && 800 ≤ f && f ≤ 1200

/-- Whether a throttle step is in force on a die of a partition (R422). -/
def State.throttledPart (s : State) (n : Nat) : Bool := s.mg.throttled.any fun x => (s.part n).dies.testBit x.1

/-- EQUINOX_CLOCK_CHANGE (R360): the last pair gains 25 MHz and the first loses 25 MHz, within the limits and the power budget, which is
a free value (log 4); throttling comes first (R422). -/
def execEquinoxClockChange (n : Nat) (s : State) : Answer :=
  let p := s.part n
  match p.eqxQ with
  | [] => .next s
  | x :: rest =>
    let s := ({ s with draws := s.draws + 1 } : State).setPart n { p with eqxQ := rest }
    let up := s.pair x.gains
    let down := s.pair x.loses
    let budget := Config.free s.draws 50 % 2 = 0
    if x.gains != x.loses && !(s.throttledPart n) && budget && p.clockOk (up.mhz + 25) && p.clockOk (down.mhz - 25) then
      .next ((s.setPair x.gains { up with mhz := up.mhz + 25 }).setPair x.loses { down with mhz := down.mhz - 25 })
    else .next s

/-! ## Throttling (R422) -/

/-- The core pairs of a die. -/
def diePairs (d : Nat) : List Nat := (List.range Config.pairsPerDie).map fun i => Config.pairsPerDie * d + i

/-- The error record of class 6 of a die: it names the partition that owns the die, or none (log 48). -/
def State.throttleRecord (s : State) (d : Nat) : State :=
  s.errorRec 6 (((List.range s.parts.length).find? fun n => (s.part n).owns false d).getD 0xFE) (2 ^ 14 * d) 1 0

/-- The clocks of some pairs changed. -/
def State.reclock (s : State) (ps : List Nat) (f : Nat → Nat) : State := ps.foldl (fun s i => s.setPair i { s.pair i with mhz := f (s.pair i).mhz }) s

/-- THERMAL_THROTTLE (R422): a step lowers the clocks of a die's pairs by 25 MHz, to no lower than 800 MHz, and at its end they rise again; its
start and its end write a record each. -/
def execThermalThrottle (d : Nat) (start : Bool) (s : State) : Answer :=
  if start then
    let down := (diePairs d).filter fun i => (s.pair i).mhz ≥ 825
    let s := s.reclock down (· - 25)
    .next (({ s with mg := { s.mg with throttled := (d, down) :: s.mg.throttled } } : State).throttleRecord d)
  else match s.mg.throttled.find? fun x => x.1 = d with
    | none => .next s
    | some x =>
      let s := s.reclock x.2 (· + 25)
      .next (({ s with mg := { s.mg with throttled := s.mg.throttled.erase x } } : State).throttleRecord d)

end Sys2Proof.Machine
end

