-- ==== Sys2Proof/Machine/Agenda.lean ====
section
/-! DEFINITION. What a step does (log 1): the events that are due at once, the events that may happen at a free time (log 4, log 7), the
fetch of the instruction that issues (spec/03 R43, R44), the passing of half a ns (spec/12 R274), and a state in which a given
instruction is the next one to issue. -/
namespace Sys2Proof.Machine

open Sys2Proof

/-! ## Gangs one by one -/

/-- The state with a gang as the issuing one. -/
def State.focus (s : State) (g : Gang) : State := s.select g.cohort g.f2 g.cur

/-- The pending gangs for which an eligible time is still to be set. -/
def State.sleepers (s : State) : List Gang := s.gangs.filter fun g => g.st = .pending && g.eligAt.isNone

/-- The core cycle in which a pending gang becomes eligible is kept (R355, R356). -/
def State.markEligible (s : State) : State :=
  match s.sleepers with
  | [] => s
  | gs => (gs.foldl (fun s g =>
      let s' := s.focus g
      if s'.becomesEligible then { s' with g := { s'.g with eligAt := some s'.cyc } } else s') s).focus s.g

/-- What ends the block or the hold of slot n of the issuing gang now (R233, R240, R248, R257, R297 to R299). -/
def State.slotDue (s : State) (n : Nat) : Option Instr :=
  let s := { s with g := { s.g with cur := n } }
  let orHang : Option Instr := if s.hangOf.isSome then some (.hang n) else none
  if !s.g.here.live then none
  else match s.g.here.block with
  | .none => none
  | .wait _ conds all limit deadline mark =>
    match s.waitNow conds all limit deadline mark with
    | .go _ => some (.waitSatisfied n)
    | .missed _ => some (.promiseMissed n)
    | .timeout _ => some (.waitTimeout n)
    | .hang _ => some (.hang n)
    | .wait => none
  | .fence all _ _ => if s.fenceClear all then some (.fenceRelease n) else orHang
  | .chsend f ch src len _ _ => if s.canClaim f ch src len then some (.channelSlotClaim n) else orHang
  | .chrecv _ ch _ turn =>
    match s.channel ch with
    | some (_, _, c) => if c.ready && s.recvFirst ch turn then some (.channelMessageTake n) else orHang
    | none => orHang
  | .chrel _ _ _ => if s.fenceClear true then some (.channelSlotFree n) else orHang
  | .tret _ _ => none
  | .hold e _ why ready => if ready then none else if s.holdOver e why then some (.engineIssueHoldEnd n) else orHang

/-- Slot n stands parked while the other slot is free and the stack is empty (R167). -/
def Gang.unparks (g : Gang) (n : Nat) : Bool := (g.slot n).parked && !((g.slot (1 - n)).live) && g.ownStack = 0

/-- What the PC slots of the issuing gang do now (R167 to R169). Of two slots that are free at once, S0 pops first: R169 does not say (DESIGN
CHOICE, log 44). -/
def State.slotsDue (s : State) : Option Instr :=
  let g := s.g
  let t := s.cyc
  if g.merges then some .slotMerge
  else if g.unparks 0 || (g.st = .active && g.parks 0 t && !g.s0.parked) then some (.slotPark 0)
  else if g.unparks 1 || (g.st = .active && g.parks 1 t && !g.s1.parked) then some (.slotPark 1)
  else if g.s0.parked && g.s1.parked && g.s0.pc != g.s1.pc then some .slotExchange
  else if !g.s0.live && g.ownStack > 0 then some (.stackPop 0)
  else if !g.s1.live && g.ownStack > 0 then some (.stackPop 1)
  else none

/-- What changes the issuing gang's place among the gangs of its core now (R355, R356). -/
def State.setDue (s : State) : Option Instr :=
  if s.goesPending then some .gangToPending
  else if s.entersActive then some .pendingEntersActive
  else if s.rotatesOut then some .activeRotationOut
  else none

/-- A `tret` that has issued returns now, also where its cohort has been stopped since (R99, R369). -/
def State.returnDue (s : State) : Option Instr :=
  let step (n : Nat) : Option Instr :=
    match ((s.g.slot n).returns s.cyc).bind fun _ => ({ s with g := { s.g with cur := n } } : State).blockedView with
    | some (.cf 0x0F f) => some (.tret f)
    | _ => none
  match step 0 with
  | some i => some i
  | none => step 1

/-- What is due for the issuing gang. -/
def State.gangDue (s : State) : Option Instr :=
  if s.returnDue.isSome then s.returnDue
  else if s.g.st = .exited || s.coh.st != .resident then none
  else if s.g.ends then some .gangEnd
  else match s.slotDue 0 with
    | some i => some i
    | none => match s.slotDue 1 with
      | some i => some i
      | none => match s.slotsDue with
        | some i => some i
        | none => s.setDue

/-- The first gang for which something is due. -/
def State.gangsDue (s : State) : List Gang → Option (State × Instr)
  | [] => none
  | g :: gs =>
    match (s.focus g).gangDue with
    | some i => some (s.focus g, i)
    | none => s.gangsDue gs

/-! ## Events that are due at once -/

/-- Waiting packets lose slack at multiples of 4 ns (R279). -/
def State.tickDue (s : State) : Bool := s.now % 4 = 0 && !s.half && s.tickAt != s.now

/-- A router that wakes or powers off now (R275). -/
def State.routerDue (s : State) : Option Instr :=
  match s.routers.find? fun x => x.2.wakeAt.any fun t => t ≤ s.halfNs with
  | some x => some (.routerWake x.1)
  | none => (s.routers.find? fun x => s.canPowerOff x.1).map fun x => .routerPowerOff x.1

/-- The step of a started packet, by its type (R343, R346, R408, R415, R421). -/
def Pkt.step (p : Pkt) (n q : Nat) : Instr :=
  match p.type with
  | 1 => .launchPacket n q
  | 2 => .copyPacket n q
  | 3 => .signalPacket n q
  | 4 => if p.body1 % 2 ^ 32 = 0 then .removeHandle n q else .installPacket n q
  | _ => if p.body0 % 256 = 2 then .queryIdentity n q else if p.body0 % 256 = 3 then .queryRevision n q else .queryQuote n q

/-- The queues of the enabled partitions, as pairs of partition and queue. -/
def State.allQueues (s : State) : List (Nat × Nat) :=
  ((List.range s.parts.length).filter fun n => (s.part n).en).flatMap fun n => (List.range 16).map fun q => (n, q)

/-- A packet whose own step follows its start (R345). -/
def State.packetDue (s : State) : Option Instr :=
  s.allQueues.findSome? fun x => ((s.queue x.1 x.2).pkts.find? fun p => p.started && !p.work).map fun p => p.step x.1 x.2

/-- A matrix queue whose head completes or starts now (R306, R307). -/
def State.matrixDue (s : State) : Option Instr :=
  match s.pairs.find? fun p => s.matEnds p.1 with
  | some p => some (.matrixOpComplete p.1)
  | none => (s.pairs.find? fun p => s.matStarts p.1).map fun p => .matrixOpStart p.1

/-- A partition with a clock change settled 2 µs ago (R360). -/
def State.clockDue (s : State) : Option Nat := (List.range s.parts.length).find? fun n => (s.part n).eqxQ.any fun x => x.at_ + 2000 ≤ s.now

/-- What is due for the module as a whole. -/
def State.moduleDue (s : State) : Option Instr :=
  if s.tickDue then some .slackTick
  else match s.routerDue with
  | some i => some i
  | none => match s.packetDue with
    | some i => some i
    | none => match s.cohorts.find? fun c => s.stops c with
      | some c => some (.preemptStop c.id)
      | none => match s.matrixDue with
        | some i => some i
        | none => match s.clockDue with
        | some n => some (.equinoxClockChange n)
        | none => (s.ops.find? fun o => o.items.isEmpty && s.opDone o).map fun o => .operationCompletion o.id

/-- The event that happens now, with the state in which its gang is the issuing one. -/
def State.due (s : State) : Option (State × Instr) :=
  match s.moduleDue with
  | some i => some (s, i)
  | none => s.gangsDue s.gangs

/-! ## Events whose time is free (log 4, log 5, log 7) -/

/-- Whether hosts and the module's surroundings take a step by themselves: what State.inputs may hold (log 5). -/
def fromOutside : Instr → Bool
  | .submission .. | .preempt .. | .resume .. | .endLaunch .. | .inval .. | .revoke .. | .allow .. | .qpri .. | .halt ..
  | .swap .. | .hostMemoryRequest .. | .controlAccessRefused .. | .interruptRemapWrite .. | .registerWrite .. | .portenWrite ..
  | .extend .. | .powerUp | .bootImageWrite .. | .nodeWordWrite .. | .bootStatusWrite .. | .thermalThrottle ..
  | .errorRecord .. | .partitionSetup .. | .fabricLinkDown .. | .fabricLinkReturn .. | .flitRetransmit .. => true
  | _ => false

/-- The next step of the surroundings, if one is to come. -/
def State.input (s : State) : Option Instr := (s.inputs.filter fromOutside).head?

/-- Whether item j of an operation may be performed or sent (R253, R288). -/
def State.itemReady (s : State) (o : Op) (j : Nat) : Bool :=
  match o.items[j]? with
  | some i => o.atWork i && (i.st != .sent || (o.outOf j).any (s.maySend o)) && match o.eng with
    | 4 => true
    | 2 => o.probed && !o.tfault && (s.cohort o.cohort).st = .resident && !(s.itemWaits o j i)
    | 1 => s.copyRuns o j && (i.st != .todo || !(s.itemWaits o j i))
    | 3 => !(s.itemWaits o j i)
    | _ => false
  | none => false

/-- Whether a message of Pulse lands next on its channel (R270, R297). -/
def State.landsNext (s : State) (o : Op) : Bool :=
  o.eng = 4 && match o.items with
  | [i] => i.closed o && match s.messageSlot o i with
    | some (d, _, _, _) => (d.chans.getD o.aval.toNat .zero).landed = i.idx
    | none => true
  | _ => false

/-- What an operation in flight may do next. -/
def State.opMay (s : State) (o : Op) : List Instr :=
  (if s.lockOver o then [.lockWaitEnd o.id] else []) ++
  (if s.opGo o then
    (if o.eng = 2 && !o.probed && (s.cohort o.cohort).st = .resident then [.probePass o.id] else []) ++
    ((List.range o.items.length).filter (s.itemReady o)).map fun j => .itemPerform o.id j
  else []) ++
  (if s.opDone o then [.operationCompletion o.id] else []) ++
  (if s.landsNext o then [.channelLanding o.id] else [])

/-- What the network, the slices, the CXL links and the ports may do next (R280, R283, R392 to R395). -/
def State.netMay (s : State) : List Instr :=
  (s.routers.flatMap fun x => if x.2.on then
    ((List.range 5).filter fun out => (s.arbiter x.1 out).isSome).map fun out => .routerGrant x.1 out else []) ++
  (s.slices.flatMap fun x =>
    (if (x.2.servable s.draws).isEmpty then [] else [.sliceServe x.1]) ++
    (if x.2.q.any (fun y => y.2 = .ready) && s.replyRoom x.1 then [.sliceApply x.1] else []) ++
    (if s.replyRoom x.1 then (x.2.watches.filter fun p => p.elems.any PElem.over).map fun p => .watchComplete p.op else [])) ++
  (s.cxl.zipIdx.flatMap fun x =>
    (if x.1.q.isEmpty && x.1.sent.isEmpty && (s.hubReady x.2 x.1.rx).isNone then [] else [.cxlSend x.2]) ++
    (if x.1.sent.any fun y => y.2 + 100000 ≤ s.now then [.cxlResponseTimeout x.2] else [])) ++
  (s.ports.zipIdx.flatMap fun x =>
    (if (x.1.up && !x.1.q.isEmpty) || (s.rxReady x.2 x.1).isSome then [.fabricEgressGrant x.2] else []) ++
    (if !x.1.up && x.1.q.any (fun e => e.since + 100000 ≤ s.now) then [.fabricPortTimeout x.2] else []) ++
    ((x.1.held.filter fun e => !(s.portBusy e.pkt.dnode x.2)).map fun e => .portSwitchRelease e.pkt.dnode))

/-- What the dispatcher and the firmware of a partition may do next (R345, R353, R359, R383, R399). -/
def State.partMay (s : State) (n : Nat) : List Instr :=
  ((List.range 16).flatMap fun q =>
    (if (s.startable n q).isSome then [.packetStart n q] else []) ++
    (if (s.queue n q).pkts.any (s.pktDone n q) then [.packetComplete n q] else [])) ++
  (match s.dispatchAct n with
    | .idle => []
    | .restore _ c => [.restore c.id]
    | _ => [.dispatchConsider n]) ++
  (if s.childReady n then [.childStart n] else []) ++
  (if s.commandOver n then [.commandDone n] else []) ++
  (if s.invalOver n then [.invalidationComplete n] else []) ++
  (if (s.part n).eqxQ.isEmpty then [] else [.equinoxClockChange n])

/-- What may happen to a cohort (R371, R373, R374). -/
def State.cohortMay (s : State) (c : Cohort) : List Instr :=
  (if s.quiesces c || s.faultsNow c then [.quiesce c.id] else []) ++
  (if s.saves c then [.saveReport c.id] else [])

/-- The events that may happen now: the next input first. -/
def State.may (s : State) : List Instr :=
  s.input.toList ++ s.ops.flatMap s.opMay ++ s.netMay ++
  ((List.range s.parts.length).filter fun n => (s.part n).en).flatMap s.partMay ++ s.cohorts.flatMap s.cohortMay ++
  (if s.mg.status = 1 then [.imageVerified] else [])

/-- The input list without its next step. -/
def State.took (s : State) : State := { s with inputs := (s.inputs.filter fromOutside).tail }

/-- One of the events that may happen now, or none of them: a free choice (log 4). -/
def State.mayHappen (s : State) : State × Option Instr :=
  match s.may with
  | [] => (s, none)
  | es =>
    let k := Config.free s.draws 0 % (es.length + 1)
    let s' := { s with draws := s.draws + 1 }
    (if k = 0 && s.input.isSome then s'.took else s', es[k]?)

/-! ## The instruction that issues (R40, R41, R43, R44) -/

/-- The instruction at the issuing slot's PC; a misaligned PC reads nothing. -/
def State.fetched (s : State) : Except Flt Instr :=
  if s.g.here.pc % 4 != 0 then .error ⟨.misaligned, 0, 0⟩ else decode s.fetch

/-- The decode faults of the word at the PC, the gang's included, in the order of R41; e where no instruction stands there. -/
def State.wordFault (s : State) (e : Flt) : Flt :=
  match s.fetch with
  | lo :: hi :: rest =>
    let w := baseWord lo hi
    match wordView w rest with
    | none => e
    | some v =>
      if v.instr.isNone then e
      else (firstFault ((if wordReserved w then [⟨.reservedField, 0, 0⟩] else []) ++ v.faults ++ gangFaults s.g v ++
        repFaults s.g.here.rep v)).getD e
  | _ => e

/-- The word at the PC traps at decode (R40, R44). -/
def State.decodeTrap (s : State) (e : Flt) : State :=
  let s := s.land
  let e' := s.wordFault e
  let (w, l) := s.wordHere
  if e.cause = .misaligned then takeTrap s.takeIssue e 0 0 else takeTrap s.takeIssue e' w l

/-! ## Time (R274, R360) -/

/-- Half a ns of a pair's clock: mhz / 2000 of a core cycle. -/
def Pair.tick (p : Pair) : Pair :=
  if p.frac + p.mhz ≥ 2000 then { p with frac := p.frac + p.mhz - 2000, cyc := p.cyc + 1 } else { p with frac := p.frac + p.mhz }

/-- The gangs with results or effects in flight. Which of several gangs' effects of one cycle come first is a free choice (R213). -/
def State.movers (s : State) : List Gang :=
  let gs := s.gangs.filter fun g => !(g.pend.isEmpty && g.fx.isEmpty)
  (gs.zipIdx.foldl (fun xs x => insertBy (fun y : Gang × Nat => [Config.free s.draws (1000 + y.2)]) x xs) []).map (·.1)

/-- What is due lands, gang by gang; then the later passes of loads read (R151). -/
def State.landAll (s : State) : State :=
  match s.movers with
  | [] => s
  | gs =>
    let s' := gs.foldl (fun s g => (s.focus g).land) s
    let s' := gs.foldl (fun s g => let s := s.focus g; if s.g.loads.isEmpty then s else s.loadIf fun x => x.at_ ≤ s.cyc) s'
    { (s'.focus s.g) with draws := s.draws + 1 }

/-- Half a ns passes. -/
def State.advance (s : State) : State :=
  ({ s with
      now := if s.half then s.now + 1 else s.now
      half := !s.half
      pairs := s.pairs.map fun p => (p.1, p.2.tick) } : State).landAll

/-! ## A given instruction next -/

/-- The kernel of such an instruction: native text from address 0, one lane, every unit and width allowed. -/
def Kern.single (text : List W32) : Kern :=
  { Kern.empty with regs := 256, hang := 1000000, mat := true, text := text }

/-- Its gang: the first of cohort 1, with its one lane in slot 0. -/
def Gang.single (text : List W32) : Gang :=
  { Gang.idle with
    cohort := 1, kn := .single text, lanes := [Lane.init 256 0]
    s0 := { Slot.free with pc := 0, mask := 1, live := true }, st := .active }

/-- A pair that the cohort of the instruction holds, at the start of its clock. -/
def Pair.single (p : Pair) : Pair := { p with cyc := 0, frac := 0, busy := [], holder := some 1, holderLaunch := some 1, matq := [] }

/-- The state in which one gang stands before the given text and nothing else is under way: memory, scratchpad and management state
stay as they are (log 1). -/
def State.withText (s : State) (text : List W32) : State :=
  { s with
    g := .single text, others := []
    cohorts := [{ Cohort.empty with id := 1, launch := 1, cs := 8192, bc := List.replicate 8 idPerm }]
    launches := [{ id := 1, part := 0, queue := none, seq := 0, pasid := 0, prio := 0, chk := false, seed := 0, partv := 0, args := [],
                   argblock := [], stamp := 0, kern := .single text, handle := 0, version := 0, code := 0, nextCluster := 1, started := 0, startCyc := [],
                   ended := false, done := false, parent := none }]
    pairs := assocSet s.pairs 0 (s.pair 0).single
    tlb := [], ops := [], locks := [], nextId := 2
    routers := [], slices := [], cxl := State.reset.cxl, ports := State.reset.ports, parts := State.reset.parts
    mg := { s.mg with status := if s.mg.status = 1 then 0 else s.mg.status }
    tickAt := s.now, inputs := [] }

end Sys2Proof.Machine
end

