-- ==== Sys2Proof/Machine/Dispatch.lean ====
section
/-! DEFINITION. One arm for each constructor of Instr: a direct call of its meaning. -/
namespace Sys2Proof.Machine

open Sys2Proof

def exec (i : Instr) (s : State) : Host.Outcome State Fault Refusal :=
  match i with
  | .nop f => Sys2Proof.Machine.execNop f s
  | .bra f => Sys2Proof.Machine.execBra f s
  | .brz f => Sys2Proof.Machine.execBrz f s
  | .brnz f => Sys2Proof.Machine.execBrnz f s
  | .brv f => Sys2Proof.Machine.execBrv f s
  | .jmp f => Sys2Proof.Machine.execJmp f s
  | .call f => Sys2Proof.Machine.execCall f s
  | .callr f => Sys2Proof.Machine.execCallr f s
  | .ret f => Sys2Proof.Machine.execRet f s
  | .loop f => Sys2Proof.Machine.execLoop f s
  | .rpt f => Sys2Proof.Machine.execRpt f s
  | .exit f => Sys2Proof.Machine.execExit f s
  | .yield f => Sys2Proof.Machine.execYield f s
  | .trap f => Sys2Proof.Machine.execTrap f s
  | .tret f => Sys2Proof.Machine.execTret f s
  | .brk f => Sys2Proof.Machine.execBrk f s
  | .sysrd f => Sys2Proof.Machine.execSysrd f s
  | .syswr f => Sys2Proof.Machine.execSyswr f s
  | .launch f => Sys2Proof.Machine.execLaunch f s
  | .elect f => Sys2Proof.Machine.execElect f s
  | .sadd f => Sys2Proof.Machine.execSadd f s
  | .ssub f => Sys2Proof.Machine.execSsub f s
  | .smul f => Sys2Proof.Machine.execSmul f s
  | .smulh f => Sys2Proof.Machine.execSmulh f s
  | .sdiv f => Sys2Proof.Machine.execSdiv f s
  | .srem f => Sys2Proof.Machine.execSrem f s
  | .sand f => Sys2Proof.Machine.execSand f s
  | .sor f => Sys2Proof.Machine.execSor f s
  | .sxor f => Sys2Proof.Machine.execSxor f s
  | .sshl f => Sys2Proof.Machine.execSshl f s
  | .sshr f => Sys2Proof.Machine.execSshr f s
  | .ssra f => Sys2Proof.Machine.execSsra f s
  | .smin f => Sys2Proof.Machine.execSmin f s
  | .smax f => Sys2Proof.Machine.execSmax f s
  | .scmp f => Sys2Proof.Machine.execScmp f s
  | .ssel f => Sys2Proof.Machine.execSsel f s
  | .smov f => Sys2Proof.Machine.execSmov f s
  | .sbfe f => Sys2Proof.Machine.execSbfe f s
  | .sbfi f => Sys2Proof.Machine.execSbfi f s
  | .spopc f => Sys2Proof.Machine.execSpopc f s
  | .sclz f => Sys2Proof.Machine.execSclz f s
  | .sctz f => Sys2Proof.Machine.execSctz f s
  | .sld f => Sys2Proof.Machine.execSld f s
  | .sst f => Sys2Proof.Machine.execSst f s
  | .rdlane f => Sys2Proof.Machine.execRdlane f s
  | .wrlane f => Sys2Proof.Machine.execWrlane f s
  | .smad f => Sys2Proof.Machine.execSmad f s
  | .slea f => Sys2Proof.Machine.execSlea f s
  | .add f => Sys2Proof.Machine.execAdd f s
  | .sub f => Sys2Proof.Machine.execSub f s
  | .mul f => Sys2Proof.Machine.execMul f s
  | .mulh f => Sys2Proof.Machine.execMulh f s
  | .mad f => Sys2Proof.Machine.execMad f s
  | .min f => Sys2Proof.Machine.execMin f s
  | .max f => Sys2Proof.Machine.execMax f s
  | .abs f => Sys2Proof.Machine.execAbs f s
  | .neg f => Sys2Proof.Machine.execNeg f s
  | .and f => Sys2Proof.Machine.execAnd f s
  | .or f => Sys2Proof.Machine.execOr f s
  | .xor f => Sys2Proof.Machine.execXor f s
  | .not f => Sys2Proof.Machine.execNot f s
  | .shl f => Sys2Proof.Machine.execShl f s
  | .shr f => Sys2Proof.Machine.execShr f s
  | .sra f => Sys2Proof.Machine.execSra f s
  | .rotl f => Sys2Proof.Machine.execRotl f s
  | .bfe f => Sys2Proof.Machine.execBfe f s
  | .bfi f => Sys2Proof.Machine.execBfi f s
  | .popc f => Sys2Proof.Machine.execPopc f s
  | .clz f => Sys2Proof.Machine.execClz f s
  | .ctz f => Sys2Proof.Machine.execCtz f s
  | .brev f => Sys2Proof.Machine.execBrev f s
  | .sel f => Sys2Proof.Machine.execSel f s
  | .icmp f => Sys2Proof.Machine.execIcmp f s
  | .mov f => Sys2Proof.Machine.execMov f s
  | .dot4 f => Sys2Proof.Machine.execDot4 f s
  | .lea f => Sys2Proof.Machine.execLea f s
  | .prmt f => Sys2Proof.Machine.execPrmt f s
  | .fadd f => Sys2Proof.Machine.execFadd f s
  | .fsub f => Sys2Proof.Machine.execFsub f s
  | .fmul f => Sys2Proof.Machine.execFmul f s
  | .fma f => Sys2Proof.Machine.execFma f s
  | .fmin f => Sys2Proof.Machine.execFmin f s
  | .fmax f => Sys2Proof.Machine.execFmax f s
  | .fabs f => Sys2Proof.Machine.execFabs f s
  | .fneg f => Sys2Proof.Machine.execFneg f s
  | .fcmp f => Sys2Proof.Machine.execFcmp f s
  | .fclass f => Sys2Proof.Machine.execFclass f s
  | .rcp f => Sys2Proof.Machine.execRcp f s
  | .rsqrt f => Sys2Proof.Machine.execRsqrt f s
  | .sqrt f => Sys2Proof.Machine.execSqrt f s
  | .ex2 f => Sys2Proof.Machine.execEx2 f s
  | .lg2 f => Sys2Proof.Machine.execLg2 f s
  | .sinpi f => Sys2Proof.Machine.execSinpi f s
  | .cospi f => Sys2Proof.Machine.execCospi f s
  | .frnd f => Sys2Proof.Machine.execFrnd f s
  | .frac f => Sys2Proof.Machine.execFrac f s
  | .ldexp f => Sys2Proof.Machine.execLdexp f s
  | .cvt f => Sys2Proof.Machine.execCvt f s
  | .cvtef f => Sys2Proof.Machine.execCvtef f s
  | .fdot2 f => Sys2Proof.Machine.execFdot2 f s
  | .pand f => Sys2Proof.Machine.execPand f s
  | .por f => Sys2Proof.Machine.execPor f s
  | .pxor f => Sys2Proof.Machine.execPxor f s
  | .pnot f => Sys2Proof.Machine.execPnot f s
  | .pset f => Sys2Proof.Machine.execPset f s
  | .pget f => Sys2Proof.Machine.execPget f s
  | .vote f => Sys2Proof.Machine.execVote f s
  | .mvn f => Sys2Proof.Machine.execMvn f s
  | .pdesc f => Sys2Proof.Machine.execPdesc f s
  | .pld f => Sys2Proof.Machine.execPld f s
  | .pst f => Sys2Proof.Machine.execPst f s
  | .pew f => Sys2Proof.Machine.execPew f s
  | .pshift f => Sys2Proof.Machine.execPshift f s
  | .prot f => Sys2Proof.Machine.execProt f s
  | .pspread f => Sys2Proof.Machine.execPspread f s
  | .pfold f => Sys2Proof.Machine.execPfold f s
  | .prefold f => Sys2Proof.Machine.execPrefold f s
  | .ptrans f => Sys2Proof.Machine.execPtrans f s
  | .pscan f => Sys2Proof.Machine.execPscan f s
  | .bset f => Sys2Proof.Machine.execBset f s
  | .bperm f => Sys2Proof.Machine.execBperm f s
  | .cfd f => Sys2Proof.Machine.execCfd f s
  | .kadd f => Sys2Proof.Machine.execKadd f s
  | .pfill f => Sys2Proof.Machine.execPfill f s
  | .ldl f => Sys2Proof.Machine.execLdl f s
  | .stl f => Sys2Proof.Machine.execStl f s
  | .ldx f => Sys2Proof.Machine.execLdx f s
  | .stx f => Sys2Proof.Machine.execStx f s
  | .atoms f => Sys2Proof.Machine.execAtoms f s
  | .fnc f => Sys2Proof.Machine.execFnc f s
  | .bini f => Sys2Proof.Machine.execBini f s
  | .barv f => Sys2Proof.Machine.execBarv f s
  | .bexp f => Sys2Proof.Machine.execBexp f s
  | .bdrop f => Sys2Proof.Machine.execBdrop f s
  | .btest f => Sys2Proof.Machine.execBtest f s
  | .wait f => Sys2Proof.Machine.execWait f s
  | .kset f => Sys2Proof.Machine.execKset f s
  | .gld f => Sys2Proof.Machine.execGld f s
  | .gst f => Sys2Proof.Machine.execGst f s
  | .gatom f => Sys2Proof.Machine.execGatom f s
  | .watch f => Sys2Proof.Machine.execWatch f s
  | .cpy f => Sys2Proof.Machine.execCpy f s
  | .gth f => Sys2Proof.Machine.execGth f s
  | .sct f => Sys2Proof.Machine.execSct f s
  | .probe f => Sys2Proof.Machine.execProbe f s
  | .chsend f => Sys2Proof.Machine.execChsend f s
  | .chrecv f => Sys2Proof.Machine.execChrecv f s
  | .chrel f => Sys2Proof.Machine.execChrel f s
  | .chpoll f => Sys2Proof.Machine.execChpoll f s
  | .eqry f => Sys2Proof.Machine.execEqry f s
  | .ecncl f => Sys2Proof.Machine.execEcncl f s
  | .mma f => Sys2Proof.Machine.execMma f s
  | .mmasp f => Sys2Proof.Machine.execMmasp f s
  | .scout f => Sys2Proof.Machine.execScout f s
  | .hzn f => Sys2Proof.Machine.execHzn f s
  | .drain f => Sys2Proof.Machine.execDrain f s
  | .azero f => Sys2Proof.Machine.execAzero f s
  | .qnt f => Sys2Proof.Machine.execQnt f s
  | .trq f => Sys2Proof.Machine.execTrq f s
  | .bput f => Sys2Proof.Machine.execBput f s
  | .mop f => Sys2Proof.Machine.execMop f s
  | .mrd f => Sys2Proof.Machine.execMrd f s
  | .mwr f => Sys2Proof.Machine.execMwr f s
  | .trapEntry cause detail condw => Sys2Proof.Machine.execTrapEntry cause detail condw s
  | .cohortFault cause => Sys2Proof.Machine.execCohortFault cause s
  | .gangEnd => Sys2Proof.Machine.execGangEnd s
  | .slotPark slot => Sys2Proof.Machine.execSlotPark slot s
  | .slotExchange => Sys2Proof.Machine.execSlotExchange s
  | .slotMerge => Sys2Proof.Machine.execSlotMerge s
  | .stackPop slot => Sys2Proof.Machine.execStackPop slot s
  | .waitSatisfied slot => Sys2Proof.Machine.execWaitSatisfied slot s
  | .waitTimeout slot => Sys2Proof.Machine.execWaitTimeout slot s
  | .hang slot => Sys2Proof.Machine.execHang slot s
  | .promiseMissed slot => Sys2Proof.Machine.execPromiseMissed slot s
  | .fenceRelease slot => Sys2Proof.Machine.execFenceRelease slot s
  | .channelSlotClaim slot => Sys2Proof.Machine.execChannelSlotClaim slot s
  | .channelMessageTake slot => Sys2Proof.Machine.execChannelMessageTake slot s
  | .channelSlotFree slot => Sys2Proof.Machine.execChannelSlotFree slot s
  | .engineIssueHoldEnd slot => Sys2Proof.Machine.execEngineIssueHoldEnd slot s
  | .probePass op => Sys2Proof.Machine.execProbePass op s
  | .lockWaitEnd op => Sys2Proof.Machine.execLockWaitEnd op s
  | .itemPerform op item => Sys2Proof.Machine.execItemPerform op item s
  | .operationCompletion op => Sys2Proof.Machine.execOperationCompletion op s
  | .watchComplete op => Sys2Proof.Machine.execWatchComplete op s
  | .channelLanding op => Sys2Proof.Machine.execChannelLanding op s
  | .matrixOpStart pair => Sys2Proof.Machine.execMatrixOpStart pair s
  | .matrixOpComplete pair => Sys2Proof.Machine.execMatrixOpComplete pair s
  | .routerGrant router out => Sys2Proof.Machine.execRouterGrant router out s
  | .slackTick => Sys2Proof.Machine.execSlackTick s
  | .routerPowerOff router => Sys2Proof.Machine.execRouterPowerOff router s
  | .routerWake router => Sys2Proof.Machine.execRouterWake router s
  | .sliceServe slice => Sys2Proof.Machine.execSliceServe slice s
  | .sliceApply slice => Sys2Proof.Machine.execSliceApply slice s
  | .cxlSend link => Sys2Proof.Machine.execCxlSend link s
  | .cxlResponseTimeout link => Sys2Proof.Machine.execCxlResponseTimeout link s
  | .fabricEgressGrant port => Sys2Proof.Machine.execFabricEgressGrant port s
  | .fabricPortTimeout port => Sys2Proof.Machine.execFabricPortTimeout port s
  | .fabricLinkDown port => Sys2Proof.Machine.execFabricLinkDown port s
  | .fabricLinkReturn port => Sys2Proof.Machine.execFabricLinkReturn port s
  | .flitRetransmit port => Sys2Proof.Machine.execFlitRetransmit port s
  | .portSwitchRelease node => Sys2Proof.Machine.execPortSwitchRelease node s
  | .submission part queue offset bytes => Sys2Proof.Machine.execSubmission part queue offset bytes s
  | .packetStart part queue => Sys2Proof.Machine.execPacketStart part queue s
  | .packetComplete part queue => Sys2Proof.Machine.execPacketComplete part queue s
  | .launchPacket part queue => Sys2Proof.Machine.execLaunchPacket part queue s
  | .copyPacket part queue => Sys2Proof.Machine.execCopyPacket part queue s
  | .signalPacket part queue => Sys2Proof.Machine.execSignalPacket part queue s
  | .installPacket part queue => Sys2Proof.Machine.execInstallPacket part queue s
  | .removeHandle part queue => Sys2Proof.Machine.execRemoveHandle part queue s
  | .queryQuote part queue => Sys2Proof.Machine.execQueryQuote part queue s
  | .queryIdentity part queue => Sys2Proof.Machine.execQueryIdentity part queue s
  | .queryRevision part queue => Sys2Proof.Machine.execQueryRevision part queue s
  | .dispatchConsider part => Sys2Proof.Machine.execDispatchConsider part s
  | .gangToPending => Sys2Proof.Machine.execGangToPending s
  | .pendingEntersActive => Sys2Proof.Machine.execPendingEntersActive s
  | .activeRotationOut => Sys2Proof.Machine.execActiveRotationOut s
  | .childStart part => Sys2Proof.Machine.execChildStart part s
  | .preemptStop cohort => Sys2Proof.Machine.execPreemptStop cohort s
  | .quiesce cohort => Sys2Proof.Machine.execQuiesce cohort s
  | .saveReport cohort => Sys2Proof.Machine.execSaveReport cohort s
  | .restore cohort => Sys2Proof.Machine.execRestore cohort s
  | .preempt part queue seq cohort => Sys2Proof.Machine.execPreempt part queue seq cohort s
  | .resume part queue seq cohort => Sys2Proof.Machine.execResume part queue seq cohort s
  | .endLaunch part queue seq => Sys2Proof.Machine.execEndLaunch part queue seq s
  | .inval part pasid first bytes => Sys2Proof.Machine.execInval part pasid first bytes s
  | .revoke part pasid => Sys2Proof.Machine.execRevoke part pasid s
  | .allow part pasid => Sys2Proof.Machine.execAllow part pasid s
  | .qpri part queue priority => Sys2Proof.Machine.execQpri part queue priority s
  | .halt part => Sys2Proof.Machine.execHalt part s
  | .swap part image => Sys2Proof.Machine.execSwap part image s
  | .commandDone part => Sys2Proof.Machine.execCommandDone part s
  | .invalidationComplete part => Sys2Proof.Machine.execInvalidationComplete part s
  | .hostMemoryRequest req => Sys2Proof.Machine.execHostMemoryRequest req s
  | .controlAccessRefused part offset len write => Sys2Proof.Machine.execControlAccessRefused part offset len write s
  | .interruptRemapWrite part vector word value => Sys2Proof.Machine.execInterruptRemapWrite part vector word value s
  | .registerWrite src offset value => Sys2Proof.Machine.execRegisterWrite src offset value s
  | .portenWrite src value => Sys2Proof.Machine.execPortenWrite src value s
  | .extend src index => Sys2Proof.Machine.execExtend src index s
  | .powerUp => Sys2Proof.Machine.execPowerUp s
  | .bootImageWrite offset bytes => Sys2Proof.Machine.execBootImageWrite offset bytes s
  | .nodeWordWrite value => Sys2Proof.Machine.execNodeWordWrite value s
  | .bootStatusWrite src value => Sys2Proof.Machine.execBootStatusWrite src value s
  | .imageVerified => Sys2Proof.Machine.execImageVerified s
  | .equinoxClockChange part => Sys2Proof.Machine.execEquinoxClockChange part s
  | .thermalThrottle die start => Sys2Proof.Machine.execThermalThrottle die start s
  | .errorRecord cls part unit count addr => Sys2Proof.Machine.execErrorRecord cls part unit count addr s
  | .partitionSetup src n offset value => Sys2Proof.Machine.execPartitionSetup src n offset value s

end Sys2Proof.Machine
end

