-- ==== Sys2Proof/Machine/Step.lean ====
section
/-! DEFINITION. One step of the module (log 1): an event that is due, else an event that may happen now, else the issue of one instruction,
else half a ns passes. -/
namespace Sys2Proof.Machine

open Sys2Proof

/-- The issue of the instruction at the PC of the issuing slot. -/
def issueHere (s : State) : Host.Outcome State Fault Refusal :=
  match s.fetched with
  | .ok i => exec i s
  | .error e => .next (s.decodeTrap e)

/-- A step at which no event happens: the next instruction issues, or time passes. -/
def quietStep (s : State) : Host.Outcome State Fault Refusal :=
  match s.choice with
  | some (g, n) => issueHere (s.select g.cohort g.f2 n)
  | none => .next s.advance

/-- One step. -/
def step (s : State) : Host.Outcome State Fault Refusal :=
  match s.markEligible.due with
  | some (s', i) => exec i s'
  | none =>
    match s.markEligible.mayHappen with
    | (s', some i) => exec i s'
    | (s', none) => quietStep s'

/-- The state with an instruction of the table, given as a number, where the next step fetches it. -/
def State.withFetchWord (s : State) (nbits w : Nat) : State := s.withText (tableUnits nbits w)

end Sys2Proof.Machine
end

