-- ==== Sys2Proof/Laws/PerInstr.lean ====
section
/-! SUPPORT. Statements made for every instruction: each instruction is the one that its word's view names, so the decoder's table of
opcodes and the encoder's agree (R64). The steps of other agents have no word. -/
namespace Sys2Proof.Laws

open Sys2Proof

/-- The view of an instruction names that instruction. -/
def ViewBack.Statement (i : Instr) : Prop := ∀ v, i.view = some v → v.instr = some i

theorem ViewBack.nop (f : Fields) : ViewBack.Statement (.nop f) := fun _ h => by cases h; rfl
theorem ViewBack.bra (f : JFields) : ViewBack.Statement (.bra f) := fun _ h => by cases h; rfl
theorem ViewBack.brz (f : JFields) : ViewBack.Statement (.brz f) := fun _ h => by cases h; rfl
theorem ViewBack.brnz (f : JFields) : ViewBack.Statement (.brnz f) := fun _ h => by cases h; rfl
theorem ViewBack.brv (f : JFields) : ViewBack.Statement (.brv f) := fun _ h => by cases h; rfl
theorem ViewBack.jmp (f : JFields) : ViewBack.Statement (.jmp f) := fun _ h => by cases h; rfl
theorem ViewBack.call (f : JFields) : ViewBack.Statement (.call f) := fun _ h => by cases h; rfl
theorem ViewBack.callr (f : JFields) : ViewBack.Statement (.callr f) := fun _ h => by cases h; rfl
theorem ViewBack.ret (f : JFields) : ViewBack.Statement (.ret f) := fun _ h => by cases h; rfl
theorem ViewBack.loop (f : JFields) : ViewBack.Statement (.loop f) := fun _ h => by cases h; rfl
theorem ViewBack.rpt (f : QFields) : ViewBack.Statement (.rpt f) := fun _ h => by cases h; rfl
theorem ViewBack.exit (f : Fields) : ViewBack.Statement (.exit f) := fun _ h => by cases h; rfl
theorem ViewBack.yield (f : Fields) : ViewBack.Statement (.yield f) := fun _ h => by cases h; rfl
theorem ViewBack.trap (f : Fields) : ViewBack.Statement (.trap f) := fun _ h => by cases h; rfl
theorem ViewBack.tret (f : Fields) : ViewBack.Statement (.tret f) := fun _ h => by cases h; rfl
theorem ViewBack.brk (f : Fields) : ViewBack.Statement (.brk f) := fun _ h => by cases h; rfl
theorem ViewBack.sysrd (f : SFields) : ViewBack.Statement (.sysrd f) := fun _ h => by cases h; rfl
theorem ViewBack.syswr (f : SFields) : ViewBack.Statement (.syswr f) := fun _ h => by cases h; rfl
theorem ViewBack.launch (f : Fields) : ViewBack.Statement (.launch f) := fun _ h => by cases h; rfl
theorem ViewBack.elect (f : Fields) : ViewBack.Statement (.elect f) := fun _ h => by cases h; rfl
theorem ViewBack.sadd (f : Fields) : ViewBack.Statement (.sadd f) := fun _ h => by cases h; rfl
theorem ViewBack.ssub (f : Fields) : ViewBack.Statement (.ssub f) := fun _ h => by cases h; rfl
theorem ViewBack.smul (f : Fields) : ViewBack.Statement (.smul f) := fun _ h => by cases h; rfl
theorem ViewBack.smulh (f : Fields) : ViewBack.Statement (.smulh f) := fun _ h => by cases h; rfl
theorem ViewBack.sdiv (f : Fields) : ViewBack.Statement (.sdiv f) := fun _ h => by cases h; rfl
theorem ViewBack.srem (f : Fields) : ViewBack.Statement (.srem f) := fun _ h => by cases h; rfl
theorem ViewBack.sand (f : Fields) : ViewBack.Statement (.sand f) := fun _ h => by cases h; rfl
theorem ViewBack.sor (f : Fields) : ViewBack.Statement (.sor f) := fun _ h => by cases h; rfl
theorem ViewBack.sxor (f : Fields) : ViewBack.Statement (.sxor f) := fun _ h => by cases h; rfl
theorem ViewBack.sshl (f : Fields) : ViewBack.Statement (.sshl f) := fun _ h => by cases h; rfl
theorem ViewBack.sshr (f : Fields) : ViewBack.Statement (.sshr f) := fun _ h => by cases h; rfl
theorem ViewBack.ssra (f : Fields) : ViewBack.Statement (.ssra f) := fun _ h => by cases h; rfl
theorem ViewBack.smin (f : Fields) : ViewBack.Statement (.smin f) := fun _ h => by cases h; rfl
theorem ViewBack.smax (f : Fields) : ViewBack.Statement (.smax f) := fun _ h => by cases h; rfl
theorem ViewBack.scmp (f : Fields) : ViewBack.Statement (.scmp f) := fun _ h => by cases h; rfl
theorem ViewBack.ssel (f : Fields) : ViewBack.Statement (.ssel f) := fun _ h => by cases h; rfl
theorem ViewBack.smov (f : Fields) : ViewBack.Statement (.smov f) := fun _ h => by cases h; rfl
theorem ViewBack.sbfe (f : Fields) : ViewBack.Statement (.sbfe f) := fun _ h => by cases h; rfl
theorem ViewBack.sbfi (f : Fields) : ViewBack.Statement (.sbfi f) := fun _ h => by cases h; rfl
theorem ViewBack.spopc (f : Fields) : ViewBack.Statement (.spopc f) := fun _ h => by cases h; rfl
theorem ViewBack.sclz (f : Fields) : ViewBack.Statement (.sclz f) := fun _ h => by cases h; rfl
theorem ViewBack.sctz (f : Fields) : ViewBack.Statement (.sctz f) := fun _ h => by cases h; rfl
theorem ViewBack.sld (f : Fields) : ViewBack.Statement (.sld f) := fun _ h => by cases h; rfl
theorem ViewBack.sst (f : Fields) : ViewBack.Statement (.sst f) := fun _ h => by cases h; rfl
theorem ViewBack.rdlane (f : Fields) : ViewBack.Statement (.rdlane f) := fun _ h => by cases h; rfl
theorem ViewBack.wrlane (f : Fields) : ViewBack.Statement (.wrlane f) := fun _ h => by cases h; rfl
theorem ViewBack.smad (f : Fields) : ViewBack.Statement (.smad f) := fun _ h => by cases h; rfl
theorem ViewBack.slea (f : Fields) : ViewBack.Statement (.slea f) := fun _ h => by cases h; rfl
theorem ViewBack.add (f : Fields) : ViewBack.Statement (.add f) := fun _ h => by cases h; rfl
theorem ViewBack.sub (f : Fields) : ViewBack.Statement (.sub f) := fun _ h => by cases h; rfl
theorem ViewBack.mul (f : Fields) : ViewBack.Statement (.mul f) := fun _ h => by cases h; rfl
theorem ViewBack.mulh (f : Fields) : ViewBack.Statement (.mulh f) := fun _ h => by cases h; rfl
theorem ViewBack.mad (f : Fields) : ViewBack.Statement (.mad f) := fun _ h => by cases h; rfl
theorem ViewBack.min (f : Fields) : ViewBack.Statement (.min f) := fun _ h => by cases h; rfl
theorem ViewBack.max (f : Fields) : ViewBack.Statement (.max f) := fun _ h => by cases h; rfl
theorem ViewBack.abs (f : Fields) : ViewBack.Statement (.abs f) := fun _ h => by cases h; rfl
theorem ViewBack.neg (f : Fields) : ViewBack.Statement (.neg f) := fun _ h => by cases h; rfl
theorem ViewBack.and (f : Fields) : ViewBack.Statement (.and f) := fun _ h => by cases h; rfl
theorem ViewBack.or (f : Fields) : ViewBack.Statement (.or f) := fun _ h => by cases h; rfl
theorem ViewBack.xor (f : Fields) : ViewBack.Statement (.xor f) := fun _ h => by cases h; rfl
theorem ViewBack.not (f : Fields) : ViewBack.Statement (.not f) := fun _ h => by cases h; rfl
theorem ViewBack.shl (f : Fields) : ViewBack.Statement (.shl f) := fun _ h => by cases h; rfl
theorem ViewBack.shr (f : Fields) : ViewBack.Statement (.shr f) := fun _ h => by cases h; rfl
theorem ViewBack.sra (f : Fields) : ViewBack.Statement (.sra f) := fun _ h => by cases h; rfl
theorem ViewBack.rotl (f : Fields) : ViewBack.Statement (.rotl f) := fun _ h => by cases h; rfl
theorem ViewBack.bfe (f : Fields) : ViewBack.Statement (.bfe f) := fun _ h => by cases h; rfl
theorem ViewBack.bfi (f : Fields) : ViewBack.Statement (.bfi f) := fun _ h => by cases h; rfl
theorem ViewBack.popc (f : Fields) : ViewBack.Statement (.popc f) := fun _ h => by cases h; rfl
theorem ViewBack.clz (f : Fields) : ViewBack.Statement (.clz f) := fun _ h => by cases h; rfl
theorem ViewBack.ctz (f : Fields) : ViewBack.Statement (.ctz f) := fun _ h => by cases h; rfl
theorem ViewBack.brev (f : Fields) : ViewBack.Statement (.brev f) := fun _ h => by cases h; rfl
theorem ViewBack.sel (f : Fields) : ViewBack.Statement (.sel f) := fun _ h => by cases h; rfl
theorem ViewBack.icmp (f : Fields) : ViewBack.Statement (.icmp f) := fun _ h => by cases h; rfl
theorem ViewBack.mov (f : Fields) : ViewBack.Statement (.mov f) := fun _ h => by cases h; rfl
theorem ViewBack.dot4 (f : Fields) : ViewBack.Statement (.dot4 f) := fun _ h => by cases h; rfl
theorem ViewBack.lea (f : Fields) : ViewBack.Statement (.lea f) := fun _ h => by cases h; rfl
theorem ViewBack.prmt (f : Fields) : ViewBack.Statement (.prmt f) := fun _ h => by cases h; rfl
theorem ViewBack.fadd (f : Fields) : ViewBack.Statement (.fadd f) := fun _ h => by cases h; rfl
theorem ViewBack.fsub (f : Fields) : ViewBack.Statement (.fsub f) := fun _ h => by cases h; rfl
theorem ViewBack.fmul (f : Fields) : ViewBack.Statement (.fmul f) := fun _ h => by cases h; rfl
theorem ViewBack.fma (f : Fields) : ViewBack.Statement (.fma f) := fun _ h => by cases h; rfl
theorem ViewBack.fmin (f : Fields) : ViewBack.Statement (.fmin f) := fun _ h => by cases h; rfl
theorem ViewBack.fmax (f : Fields) : ViewBack.Statement (.fmax f) := fun _ h => by cases h; rfl
theorem ViewBack.fabs (f : Fields) : ViewBack.Statement (.fabs f) := fun _ h => by cases h; rfl
theorem ViewBack.fneg (f : Fields) : ViewBack.Statement (.fneg f) := fun _ h => by cases h; rfl
theorem ViewBack.fcmp (f : Fields) : ViewBack.Statement (.fcmp f) := fun _ h => by cases h; rfl
theorem ViewBack.fclass (f : Fields) : ViewBack.Statement (.fclass f) := fun _ h => by cases h; rfl
theorem ViewBack.rcp (f : Fields) : ViewBack.Statement (.rcp f) := fun _ h => by cases h; rfl
theorem ViewBack.rsqrt (f : Fields) : ViewBack.Statement (.rsqrt f) := fun _ h => by cases h; rfl
theorem ViewBack.sqrt (f : Fields) : ViewBack.Statement (.sqrt f) := fun _ h => by cases h; rfl
theorem ViewBack.ex2 (f : Fields) : ViewBack.Statement (.ex2 f) := fun _ h => by cases h; rfl
theorem ViewBack.lg2 (f : Fields) : ViewBack.Statement (.lg2 f) := fun _ h => by cases h; rfl
theorem ViewBack.sinpi (f : Fields) : ViewBack.Statement (.sinpi f) := fun _ h => by cases h; rfl
theorem ViewBack.cospi (f : Fields) : ViewBack.Statement (.cospi f) := fun _ h => by cases h; rfl
theorem ViewBack.frnd (f : Fields) : ViewBack.Statement (.frnd f) := fun _ h => by cases h; rfl
theorem ViewBack.frac (f : Fields) : ViewBack.Statement (.frac f) := fun _ h => by cases h; rfl
theorem ViewBack.ldexp (f : Fields) : ViewBack.Statement (.ldexp f) := fun _ h => by cases h; rfl
theorem ViewBack.cvt (f : Fields) : ViewBack.Statement (.cvt f) := fun _ h => by cases h; rfl
theorem ViewBack.cvtef (f : Fields) : ViewBack.Statement (.cvtef f) := fun _ h => by cases h; rfl
theorem ViewBack.fdot2 (f : Fields) : ViewBack.Statement (.fdot2 f) := fun _ h => by cases h; rfl
theorem ViewBack.pand (f : Fields) : ViewBack.Statement (.pand f) := fun _ h => by cases h; rfl
theorem ViewBack.por (f : Fields) : ViewBack.Statement (.por f) := fun _ h => by cases h; rfl
theorem ViewBack.pxor (f : Fields) : ViewBack.Statement (.pxor f) := fun _ h => by cases h; rfl
theorem ViewBack.pnot (f : Fields) : ViewBack.Statement (.pnot f) := fun _ h => by cases h; rfl
theorem ViewBack.pset (f : Fields) : ViewBack.Statement (.pset f) := fun _ h => by cases h; rfl
theorem ViewBack.pget (f : Fields) : ViewBack.Statement (.pget f) := fun _ h => by cases h; rfl
theorem ViewBack.vote (f : Fields) : ViewBack.Statement (.vote f) := fun _ h => by cases h; rfl
theorem ViewBack.mvn (f : Fields) : ViewBack.Statement (.mvn f) := fun _ h => by cases h; rfl
theorem ViewBack.pdesc (f : Fields) : ViewBack.Statement (.pdesc f) := fun _ h => by cases h; rfl
theorem ViewBack.pld (f : Fields) : ViewBack.Statement (.pld f) := fun _ h => by cases h; rfl
theorem ViewBack.pst (f : Fields) : ViewBack.Statement (.pst f) := fun _ h => by cases h; rfl
theorem ViewBack.pew (f : Fields) : ViewBack.Statement (.pew f) := fun _ h => by cases h; rfl
theorem ViewBack.pshift (f : Fields) : ViewBack.Statement (.pshift f) := fun _ h => by cases h; rfl
theorem ViewBack.prot (f : Fields) : ViewBack.Statement (.prot f) := fun _ h => by cases h; rfl
theorem ViewBack.pspread (f : Fields) : ViewBack.Statement (.pspread f) := fun _ h => by cases h; rfl
theorem ViewBack.pfold (f : Fields) : ViewBack.Statement (.pfold f) := fun _ h => by cases h; rfl
theorem ViewBack.prefold (f : Fields) : ViewBack.Statement (.prefold f) := fun _ h => by cases h; rfl
theorem ViewBack.ptrans (f : Fields) : ViewBack.Statement (.ptrans f) := fun _ h => by cases h; rfl
theorem ViewBack.pscan (f : Fields) : ViewBack.Statement (.pscan f) := fun _ h => by cases h; rfl
theorem ViewBack.bset (f : Fields) : ViewBack.Statement (.bset f) := fun _ h => by cases h; rfl
theorem ViewBack.bperm (f : Fields) : ViewBack.Statement (.bperm f) := fun _ h => by cases h; rfl
theorem ViewBack.cfd (f : Fields) : ViewBack.Statement (.cfd f) := fun _ h => by cases h; rfl
theorem ViewBack.kadd (f : Fields) : ViewBack.Statement (.kadd f) := fun _ h => by cases h; rfl
theorem ViewBack.pfill (f : Fields) : ViewBack.Statement (.pfill f) := fun _ h => by cases h; rfl
theorem ViewBack.ldl (f : Fields) : ViewBack.Statement (.ldl f) := fun _ h => by cases h; rfl
theorem ViewBack.stl (f : Fields) : ViewBack.Statement (.stl f) := fun _ h => by cases h; rfl
theorem ViewBack.ldx (f : Fields) : ViewBack.Statement (.ldx f) := fun _ h => by cases h; rfl
theorem ViewBack.stx (f : Fields) : ViewBack.Statement (.stx f) := fun _ h => by cases h; rfl
theorem ViewBack.atoms (f : Fields) : ViewBack.Statement (.atoms f) := fun _ h => by cases h; rfl
theorem ViewBack.fnc (f : Fields) : ViewBack.Statement (.fnc f) := fun _ h => by cases h; rfl
theorem ViewBack.bini (f : Fields) : ViewBack.Statement (.bini f) := fun _ h => by cases h; rfl
theorem ViewBack.barv (f : Fields) : ViewBack.Statement (.barv f) := fun _ h => by cases h; rfl
theorem ViewBack.bexp (f : Fields) : ViewBack.Statement (.bexp f) := fun _ h => by cases h; rfl
theorem ViewBack.bdrop (f : Fields) : ViewBack.Statement (.bdrop f) := fun _ h => by cases h; rfl
theorem ViewBack.btest (f : Fields) : ViewBack.Statement (.btest f) := fun _ h => by cases h; rfl
theorem ViewBack.wait (f : Fields) : ViewBack.Statement (.wait f) := fun _ h => by cases h; rfl
theorem ViewBack.kset (f : SFields) : ViewBack.Statement (.kset f) := fun _ h => by cases h; rfl
theorem ViewBack.gld (f : Fields) : ViewBack.Statement (.gld f) := fun _ h => by cases h; rfl
theorem ViewBack.gst (f : Fields) : ViewBack.Statement (.gst f) := fun _ h => by cases h; rfl
theorem ViewBack.gatom (f : Fields) : ViewBack.Statement (.gatom f) := fun _ h => by cases h; rfl
theorem ViewBack.watch (f : Fields) : ViewBack.Statement (.watch f) := fun _ h => by cases h; rfl
theorem ViewBack.cpy (f : Fields) : ViewBack.Statement (.cpy f) := fun _ h => by cases h; rfl
theorem ViewBack.gth (f : Fields) : ViewBack.Statement (.gth f) := fun _ h => by cases h; rfl
theorem ViewBack.sct (f : Fields) : ViewBack.Statement (.sct f) := fun _ h => by cases h; rfl
theorem ViewBack.probe (f : Fields) : ViewBack.Statement (.probe f) := fun _ h => by cases h; rfl
theorem ViewBack.chsend (f : Fields) : ViewBack.Statement (.chsend f) := fun _ h => by cases h; rfl
theorem ViewBack.chrecv (f : Fields) : ViewBack.Statement (.chrecv f) := fun _ h => by cases h; rfl
theorem ViewBack.chrel (f : Fields) : ViewBack.Statement (.chrel f) := fun _ h => by cases h; rfl
theorem ViewBack.chpoll (f : Fields) : ViewBack.Statement (.chpoll f) := fun _ h => by cases h; rfl
theorem ViewBack.eqry (f : Fields) : ViewBack.Statement (.eqry f) := fun _ h => by cases h; rfl
theorem ViewBack.ecncl (f : Fields) : ViewBack.Statement (.ecncl f) := fun _ h => by cases h; rfl
theorem ViewBack.mma (f : Fields) : ViewBack.Statement (.mma f) := fun _ h => by cases h; rfl
theorem ViewBack.mmasp (f : Fields) : ViewBack.Statement (.mmasp f) := fun _ h => by cases h; rfl
theorem ViewBack.scout (f : Fields) : ViewBack.Statement (.scout f) := fun _ h => by cases h; rfl
theorem ViewBack.hzn (f : Fields) : ViewBack.Statement (.hzn f) := fun _ h => by cases h; rfl
theorem ViewBack.drain (f : Fields) : ViewBack.Statement (.drain f) := fun _ h => by cases h; rfl
theorem ViewBack.azero (f : Fields) : ViewBack.Statement (.azero f) := fun _ h => by cases h; rfl
theorem ViewBack.qnt (f : Fields) : ViewBack.Statement (.qnt f) := fun _ h => by cases h; rfl
theorem ViewBack.trq (f : Fields) : ViewBack.Statement (.trq f) := fun _ h => by cases h; rfl
theorem ViewBack.bput (f : Fields) : ViewBack.Statement (.bput f) := fun _ h => by cases h; rfl
theorem ViewBack.mop (f : Fields) : ViewBack.Statement (.mop f) := fun _ h => by cases h; rfl
theorem ViewBack.mrd (f : Fields) : ViewBack.Statement (.mrd f) := fun _ h => by cases h; rfl
theorem ViewBack.mwr (f : Fields) : ViewBack.Statement (.mwr f) := fun _ h => by cases h; rfl
theorem ViewBack.trapEntry (cause : Cause) (detail : Nat) (condw : Nat) : ViewBack.Statement (.trapEntry cause detail condw) := fun _ h => nomatch h
theorem ViewBack.cohortFault (cause : Cause) : ViewBack.Statement (.cohortFault cause) := fun _ h => nomatch h
theorem ViewBack.gangEnd : ViewBack.Statement (.gangEnd) := fun _ h => nomatch h
theorem ViewBack.slotPark (slot : Nat) : ViewBack.Statement (.slotPark slot) := fun _ h => nomatch h
theorem ViewBack.slotExchange : ViewBack.Statement (.slotExchange) := fun _ h => nomatch h
theorem ViewBack.slotMerge : ViewBack.Statement (.slotMerge) := fun _ h => nomatch h
theorem ViewBack.stackPop (slot : Nat) : ViewBack.Statement (.stackPop slot) := fun _ h => nomatch h
theorem ViewBack.waitSatisfied (slot : Nat) : ViewBack.Statement (.waitSatisfied slot) := fun _ h => nomatch h
theorem ViewBack.waitTimeout (slot : Nat) : ViewBack.Statement (.waitTimeout slot) := fun _ h => nomatch h
theorem ViewBack.hang (slot : Nat) : ViewBack.Statement (.hang slot) := fun _ h => nomatch h
theorem ViewBack.promiseMissed (slot : Nat) : ViewBack.Statement (.promiseMissed slot) := fun _ h => nomatch h
theorem ViewBack.fenceRelease (slot : Nat) : ViewBack.Statement (.fenceRelease slot) := fun _ h => nomatch h
theorem ViewBack.channelSlotClaim (slot : Nat) : ViewBack.Statement (.channelSlotClaim slot) := fun _ h => nomatch h
theorem ViewBack.channelMessageTake (slot : Nat) : ViewBack.Statement (.channelMessageTake slot) := fun _ h => nomatch h
theorem ViewBack.channelSlotFree (slot : Nat) : ViewBack.Statement (.channelSlotFree slot) := fun _ h => nomatch h
theorem ViewBack.engineIssueHoldEnd (slot : Nat) : ViewBack.Statement (.engineIssueHoldEnd slot) := fun _ h => nomatch h
theorem ViewBack.probePass (op : Nat) : ViewBack.Statement (.probePass op) := fun _ h => nomatch h
theorem ViewBack.lockWaitEnd (op : Nat) : ViewBack.Statement (.lockWaitEnd op) := fun _ h => nomatch h
theorem ViewBack.itemPerform (op : Nat) (item : Nat) : ViewBack.Statement (.itemPerform op item) := fun _ h => nomatch h
theorem ViewBack.operationCompletion (op : Nat) : ViewBack.Statement (.operationCompletion op) := fun _ h => nomatch h
theorem ViewBack.watchComplete (op : Nat) : ViewBack.Statement (.watchComplete op) := fun _ h => nomatch h
theorem ViewBack.channelLanding (op : Nat) : ViewBack.Statement (.channelLanding op) := fun _ h => nomatch h
theorem ViewBack.matrixOpStart (pair : Nat) : ViewBack.Statement (.matrixOpStart pair) := fun _ h => nomatch h
theorem ViewBack.matrixOpComplete (pair : Nat) : ViewBack.Statement (.matrixOpComplete pair) := fun _ h => nomatch h
theorem ViewBack.routerGrant (router : Nat) (out : Nat) : ViewBack.Statement (.routerGrant router out) := fun _ h => nomatch h
theorem ViewBack.slackTick : ViewBack.Statement (.slackTick) := fun _ h => nomatch h
theorem ViewBack.routerPowerOff (router : Nat) : ViewBack.Statement (.routerPowerOff router) := fun _ h => nomatch h
theorem ViewBack.routerWake (router : Nat) : ViewBack.Statement (.routerWake router) := fun _ h => nomatch h
theorem ViewBack.sliceServe (slice : Nat) : ViewBack.Statement (.sliceServe slice) := fun _ h => nomatch h
theorem ViewBack.sliceApply (slice : Nat) : ViewBack.Statement (.sliceApply slice) := fun _ h => nomatch h
theorem ViewBack.cxlSend (link : Nat) : ViewBack.Statement (.cxlSend link) := fun _ h => nomatch h
theorem ViewBack.cxlResponseTimeout (link : Nat) : ViewBack.Statement (.cxlResponseTimeout link) := fun _ h => nomatch h
theorem ViewBack.fabricEgressGrant (port : Nat) : ViewBack.Statement (.fabricEgressGrant port) := fun _ h => nomatch h
theorem ViewBack.fabricPortTimeout (port : Nat) : ViewBack.Statement (.fabricPortTimeout port) := fun _ h => nomatch h
theorem ViewBack.fabricLinkDown (port : Nat) : ViewBack.Statement (.fabricLinkDown port) := fun _ h => nomatch h
theorem ViewBack.fabricLinkReturn (port : Nat) : ViewBack.Statement (.fabricLinkReturn port) := fun _ h => nomatch h
theorem ViewBack.flitRetransmit (port : Nat) : ViewBack.Statement (.flitRetransmit port) := fun _ h => nomatch h
theorem ViewBack.portSwitchRelease (node : Nat) : ViewBack.Statement (.portSwitchRelease node) := fun _ h => nomatch h
theorem ViewBack.submission (part : Nat) (queue : Nat) (offset : Nat) (bytes : List (BitVec 8)) : ViewBack.Statement (.submission part queue offset bytes) := fun _ h => nomatch h
theorem ViewBack.packetStart (part : Nat) (queue : Nat) : ViewBack.Statement (.packetStart part queue) := fun _ h => nomatch h
theorem ViewBack.packetComplete (part : Nat) (queue : Nat) : ViewBack.Statement (.packetComplete part queue) := fun _ h => nomatch h
theorem ViewBack.launchPacket (part : Nat) (queue : Nat) : ViewBack.Statement (.launchPacket part queue) := fun _ h => nomatch h
theorem ViewBack.copyPacket (part : Nat) (queue : Nat) : ViewBack.Statement (.copyPacket part queue) := fun _ h => nomatch h
theorem ViewBack.signalPacket (part : Nat) (queue : Nat) : ViewBack.Statement (.signalPacket part queue) := fun _ h => nomatch h
theorem ViewBack.installPacket (part : Nat) (queue : Nat) : ViewBack.Statement (.installPacket part queue) := fun _ h => nomatch h
theorem ViewBack.removeHandle (part : Nat) (queue : Nat) : ViewBack.Statement (.removeHandle part queue) := fun _ h => nomatch h
theorem ViewBack.queryQuote (part : Nat) (queue : Nat) : ViewBack.Statement (.queryQuote part queue) := fun _ h => nomatch h
theorem ViewBack.queryIdentity (part : Nat) (queue : Nat) : ViewBack.Statement (.queryIdentity part queue) := fun _ h => nomatch h
theorem ViewBack.queryRevision (part : Nat) (queue : Nat) : ViewBack.Statement (.queryRevision part queue) := fun _ h => nomatch h
theorem ViewBack.dispatchConsider (part : Nat) : ViewBack.Statement (.dispatchConsider part) := fun _ h => nomatch h
theorem ViewBack.gangToPending : ViewBack.Statement (.gangToPending) := fun _ h => nomatch h
theorem ViewBack.pendingEntersActive : ViewBack.Statement (.pendingEntersActive) := fun _ h => nomatch h
theorem ViewBack.activeRotationOut : ViewBack.Statement (.activeRotationOut) := fun _ h => nomatch h
theorem ViewBack.childStart (part : Nat) : ViewBack.Statement (.childStart part) := fun _ h => nomatch h
theorem ViewBack.preemptStop (cohort : Nat) : ViewBack.Statement (.preemptStop cohort) := fun _ h => nomatch h
theorem ViewBack.quiesce (cohort : Nat) : ViewBack.Statement (.quiesce cohort) := fun _ h => nomatch h
theorem ViewBack.saveReport (cohort : Nat) : ViewBack.Statement (.saveReport cohort) := fun _ h => nomatch h
theorem ViewBack.restore (cohort : Nat) : ViewBack.Statement (.restore cohort) := fun _ h => nomatch h
theorem ViewBack.preempt (part queue seq cohort : Nat) : ViewBack.Statement (.preempt part queue seq cohort) := fun _ h => nomatch h
theorem ViewBack.resume (part queue seq cohort : Nat) : ViewBack.Statement (.resume part queue seq cohort) := fun _ h => nomatch h
theorem ViewBack.endLaunch (part queue seq : Nat) : ViewBack.Statement (.endLaunch part queue seq) := fun _ h => nomatch h
theorem ViewBack.inval (part pasid first bytes : Nat) : ViewBack.Statement (.inval part pasid first bytes) := fun _ h => nomatch h
theorem ViewBack.revoke (part pasid : Nat) : ViewBack.Statement (.revoke part pasid) := fun _ h => nomatch h
theorem ViewBack.allow (part pasid : Nat) : ViewBack.Statement (.allow part pasid) := fun _ h => nomatch h
theorem ViewBack.qpri (part queue priority : Nat) : ViewBack.Statement (.qpri part queue priority) := fun _ h => nomatch h
theorem ViewBack.halt (part : Nat) : ViewBack.Statement (.halt part) := fun _ h => nomatch h
theorem ViewBack.swap (part image : Nat) : ViewBack.Statement (.swap part image) := fun _ h => nomatch h
theorem ViewBack.commandDone (part : Nat) : ViewBack.Statement (.commandDone part) := fun _ h => nomatch h
theorem ViewBack.invalidationComplete (part : Nat) : ViewBack.Statement (.invalidationComplete part) := fun _ h => nomatch h
theorem ViewBack.hostMemoryRequest (req : HostReq) : ViewBack.Statement (.hostMemoryRequest req) := fun _ h => nomatch h
theorem ViewBack.controlAccessRefused (part : Nat) (offset len : Nat) (write : Option (List (BitVec 8))) : ViewBack.Statement (.controlAccessRefused part offset len write) := fun _ h => nomatch h
theorem ViewBack.interruptRemapWrite (part vector word : Nat) (value : BitVec 64) : ViewBack.Statement (.interruptRemapWrite part vector word value) := fun _ h => nomatch h
theorem ViewBack.registerWrite (src offset : Nat) (value : BitVec 64) : ViewBack.Statement (.registerWrite src offset value) := fun _ h => nomatch h
theorem ViewBack.portenWrite (src : Nat) (value : BitVec 64) : ViewBack.Statement (.portenWrite src value) := fun _ h => nomatch h
theorem ViewBack.extend (src index : Nat) : ViewBack.Statement (.extend src index) := fun _ h => nomatch h
theorem ViewBack.powerUp : ViewBack.Statement (.powerUp) := fun _ h => nomatch h
theorem ViewBack.bootImageWrite (offset : Nat) (bytes : Sent (List (BitVec 8))) : ViewBack.Statement (.bootImageWrite offset bytes) := fun _ h => nomatch h
theorem ViewBack.nodeWordWrite (value : Sent (BitVec 64)) : ViewBack.Statement (.nodeWordWrite value) := fun _ h => nomatch h
theorem ViewBack.bootStatusWrite (src : Nat) (value : BitVec 64) : ViewBack.Statement (.bootStatusWrite src value) := fun _ h => nomatch h
theorem ViewBack.imageVerified : ViewBack.Statement (.imageVerified) := fun _ h => nomatch h
theorem ViewBack.equinoxClockChange (part : Nat) : ViewBack.Statement (.equinoxClockChange part) := fun _ h => nomatch h
theorem ViewBack.thermalThrottle (die : Nat) (start : Bool) : ViewBack.Statement (.thermalThrottle die start) := fun _ h => nomatch h
theorem ViewBack.errorRecord (cls part unit count : Nat) (addr : Nat) : ViewBack.Statement (.errorRecord cls part unit count addr) := fun _ h => nomatch h
theorem ViewBack.partitionSetup (src n offset : Nat) (value : BitVec 64) : ViewBack.Statement (.partitionSetup src n offset value) := fun _ h => nomatch h

end Sys2Proof.Laws
end

