-- ==== Sys2Proof/Safety.lean ====
section
/-! DEFINITION. What a safe run is, in the terms the claims use: a step that goes on, and the forms of the state that every step is
claimed to keep. -/
namespace Sys2Proof.Machine

open Sys2Proof

/-- The state that an answer goes on with. -/
def Answer.state? (o : Host.Outcome State Fault Refusal) : Option State :=
  match o with
  | .next s => some s
  | .fault _ => none
  | .refused _ => none

/-- A step that goes on. -/
def Safe (s : State) : Prop := ∃ t, step s = .next t

/-- Global memory stands in its canonical form. -/
def State.memOk (s : State) : Prop := s.mem.wf = true

/-- Every scratchpad stands in its canonical form. -/
def State.spadOk (s : State) : Prop := ∀ p ∈ s.spad, Memory.wf p.2 = true

/-! ## The issue of a word -/

/-- The fields of a word as its issue reads them: stepped by the repeat in progress (R62), once the results due have landed. -/
def State.stepped (s : State) (f : Fields) : Fields := stepFields s.land.g.here.rep f

/-- What the issue of most words looks at besides their fields: nothing. -/
def noAlso : State → Fields → Also := fun _ _ => .none_

/-- The units that the issue of a word needs are free (R34, R150, R173, R192, R199, R228). -/
def State.free (s : State) (v : View) (also : Also) : Prop :=
  (s.land.pair s.land.coh.pair).allFree s.land.g.core (s.land.units v also) = true

/-- No decode fault, no taken unit and no STALL_SHORT stops the issue of a word (R34, R40, R41): v0 as it stands, v as stepped. -/
def State.lets (s : State) (v0 v : View) (also : Also := .none_) : Prop :=
  decodeFault s.land.g v0 v = none ∧ s.free v also ∧ (s.land.g.checks = true → s.land.short v also = none)

/-- The state that a word reads: results due have landed, and a read of an RMW's result finds the one that will land (R32, R37, R231). -/
def State.reads (s : State) (v : View) (also : Also := .none_) : State := s.land.fixRead v also

/-- Where a word issued from s leaves the gang: u is what its effect left, fl how its slot goes on; its units are taken. -/
def State.past (s u : State) (v : View) (fl : Flow) (also : Also := .none_) : State := finish s.land v also u fl

/-- The three by format class (R45, R55, R61, R62). -/
def State.letsF (s : State) (op : Nat) (f : Fields) (also : State → Fields → Also := noAlso) : Prop :=
  s.lets (.cf op f) (.cf op (s.stepped f)) (also s.land (s.stepped f))
def State.letsJ (s : State) (op : Nat) (f : JFields) : Prop := s.lets (.cj op f) (.cj op f)
def State.letsS (s : State) (op : Nat) (f : SFields) : Prop := s.lets (.cs op f) (.cs op f)
def State.letsQ (s : State) (f : QFields) : Prop := s.lets (.cq f) (.cq f)
def State.readsF (s : State) (op : Nat) (f : Fields) (also : State → Fields → Also := noAlso) : State :=
  s.reads (.cf op (s.stepped f)) (also s.land (s.stepped f))
def State.readsJ (s : State) (op : Nat) (f : JFields) : State := s.reads (.cj op f)
def State.readsS (s : State) (op : Nat) (f : SFields) : State := s.reads (.cs op f)
def State.readsQ (s : State) (f : QFields) : State := s.reads (.cq f)
def State.pastF (s u : State) (op : Nat) (f : Fields) (fl : Flow) (also : State → Fields → Also := noAlso) : State :=
  s.past u (.cf op (s.stepped f)) fl (also s.land (s.stepped f))
def State.pastJ (s u : State) (op : Nat) (f : JFields) (fl : Flow) : State := s.past u (.cj op f) fl
def State.pastS (s u : State) (op : Nat) (f : SFields) (fl : Flow) : State := s.past u (.cs op f) fl
def State.pastQ (s u : State) (f : QFields) (fl : Flow) : State := s.past u (.cq f) fl

/-- No earlier `.acq` part of the slot holds its memory accesses (R231, R247). -/
def State.unheld (s : State) : Prop := s.acqHold = none

/-- An engine takes an operation with these locks from the issuing gang now (R248, R250, R257). -/
def State.takes (s : State) (eng : Nat) (locks : List Lock) : Prop :=
  s.engCount eng < engLimit eng ∧ (s.g.prom.getD s.g.nextTag .free).open_ = false ∧ s.lockRoom locks = true

/-- A gang's next tag names no operation in flight (R250). -/
def State.tagFree (s : State) : Prop := (s.g.prom.getD s.g.nextTag .free).open_ = false

/-! ## The issue of an operation -/

/-- From v to t every register of the issuing gang stands but its generators and the slots' own, and so do its effects in flight and every
other gang (R32, R74). -/
def keepsRegs (v t : State) : Prop :=
  t.g.lanes.map (fun l => { l with z := 0 }) = v.g.lanes.map (fun l => { l with z := 0 }) ∧ t.g.s = v.g.s ∧ t.g.m = v.g.m ∧
  t.g.k = v.g.k ∧ t.g.mode = v.g.mode ∧ t.g.tcause = v.g.tcause ∧ t.g.chk = v.g.chk ∧ t.g.itemen = v.g.itemen ∧
  t.g.lateen = v.g.lateen ∧ t.g.slackdef = v.g.slackdef ∧ t.g.late = v.g.late ∧ t.g.stackd = v.g.stackd ∧ t.g.bars = v.g.bars ∧
  t.g.fx = v.g.fx ∧ t.others = v.others

/-- An operation of engine eng issued in v, which leaves t: o is in flight under the next tag, holds its locks, and its promise lands in sD
eight cycles on (R248 to R251, R257); nothing else of the gang changes but where its slot stands. -/
def issued (v t : State) (eng : Nat) (locks : List Lock) (d : BitVec 9) (o : Op) : Prop :=
  o ∈ t.ops ∧ t.ops.map (·.id) = v.ops.map (·.id) ++ [v.nextOp] ∧ o.id = v.nextOp ∧ t.nextOp = v.nextOp + 1 ∧
  o.eng = eng ∧ o.tag = v.g.nextTag ∧ o.cohort = v.g.cohort ∧ o.f2 = v.g.f2 ∧ o.slot = v.g.tag ∧
  t.locks = v.locks ++ locks ∧ t.g.lastTag = some v.g.nextTag ∧
  t.g.prom = v.g.prom.set v.g.nextTag { PEntry.free with
    st := .inFlight, eng := eng, time := o.time, cur := o.time, opreg := o.opreg, status := 0xFF, items := o.items.length } ∧
  v.result (v.cyc + 8) (.s (sIdx d)) (promiseWord eng o.tag o.time) ∈ t.g.pend ∧ t.mem = v.mem ∧ t.spad = v.spad ∧
  (∀ p ∈ t.g.pend, p ∈ v.g.pend ∨ p.tgt = .s (sIdx d)) ∧ keepsRegs v t

/-- A word of engine 5 that completes at issue: its promise is that of a completed entry, and no operation is in flight for it (R315). -/
def doneAtIssue (v t : State) (d : BitVec 9) : Prop :=
  t.ops = v.ops ∧ t.locks = v.locks ∧ t.g.lastTag = some v.g.nextTag ∧ t.mem = v.mem ∧ t.spad = v.spad ∧
  (∀ p ∈ t.g.pend, p ∈ v.g.pend ∨ p.tgt = .s (sIdx d) ∨ ∃ n, p.tgt = .m n) ∧ keepsRegs v t ∧ ∃ e : PEntry,
    e.st = .completed ∧ e.eng = 5 ∧ t.g.prom = v.g.prom.set v.g.nextTag e ∧
    v.result (v.cyc + 8) (.s (sIdx d)) (promiseWord 5 v.g.nextTag e.time) ∈ t.g.pend

end Sys2Proof.Machine
end

