-- ==== Sys2Proof/Certificates/Slice0/Obligations.lean ====
section
/-! DEFINITION. The statements for the provers, listed in OBLIGATIONS.json. Every statement about the issue of a word has the same form: no
decode fault and no STALL_SHORT stops it (`State.letsF` and its kin), the conditions that its entry names hold, and then exec answers the next
state that its effect leaves. -/
namespace Sys2Proof.Claims

open Sys2Proof Sys2Proof.Machine

/-! ## Tables of instructions of one shape -/

/-- Scalar words whose one effect is an s register: opcode, constructor, latency and result (R106 to R112, R116, R195, R301). -/
abbrev ScalarCase := Nat × (Fields → Instr) × (State → Nat) × (State → Fields → Nat)

/-- An exact result kept to the low w bits, or clamped where SUB bit 0 says `.sat` (R66, R107). -/
def keep (f : Fields) (x : Int) : Nat := extScalar f.ty (keepInt f.ty.signed f.ty.width (f.sub % 2 = 1) x)
/-- An exact result kept to the low w bits. -/
def low (f : Fields) (x : Int) : Nat := extScalar f.ty (keepInt f.ty.signed f.ty.width false x)
/-- The sources as numbers of the type. -/
def ia (s : State) (f : Fields) : Int := toInt f.ty.signed f.ty.width (s.sa f)
def ib (s : State) (f : Fields) : Int := toInt f.ty.signed f.ty.width (s.sb f)
def ic (s : State) (f : Fields) : Int := toInt f.ty.signed f.ty.width (s.sc f)

/-- Arithmetic (R108, R109). -/
def scalarArith : List ScalarCase :=
  [(0x20, .sadd, fun _ => 2, fun s f => keep f (ia s f + ib s f)),
   (0x21, .ssub, fun _ => 2, fun s f => keep f (ia s f - ib s f)),
   (0x22, .smul, fun _ => 2, fun s f => keep f (ia s f * ib s f)),
   (0x23, .smulh, fun _ => 2, fun s f => low f (ia s f * ib s f / 2 ^ f.ty.width)),
   (0x24, .sdiv, fun _ => 2, fun s f =>
     if ib s f = 0 then extScalar f.ty (2 ^ f.ty.width - 1) else low f ((ia s f).tdiv (ib s f))),
   (0x25, .srem, fun _ => 2, fun s f => if ib s f = 0 then low f (ia s f) else low f ((ia s f).tmod (ib s f))),
   (0x2C, .smin, fun _ => 2, fun s f => low f (min (ia s f) (ib s f))),
   (0x2D, .smax, fun _ => 2, fun s f => low f (max (ia s f) (ib s f))),
   (0x3A, .smad, fun _ => 2, fun s f => keep f (ia s f * ib s f + ic s f)),
   (0x3B, .slea, fun _ => 2, fun s f => (s.sa f + if s.sc f ≥ 64 then 0 else s.sb f * 2 ^ s.sc f) % 2 ^ 64)]

/-- Bits and shifts (R108, R110 to R112). -/
def scalarBits : List ScalarCase :=
  [(0x26, .sand, fun _ => 2, fun s f => s.sa f &&& s.sb f),
   (0x27, .sor, fun _ => 2, fun s f => s.sa f ||| s.sb f),
   (0x28, .sxor, fun _ => 2, fun s f => s.sa f ^^^ s.sb f),
   (0x29, .sshl, fun _ => 2, fun s f =>
     extScalar f.ty (if s.sAmt f ≥ f.ty.width then 0 else s.sa f * 2 ^ s.sAmt f % 2 ^ f.ty.width)),
   (0x2A, .sshr, fun _ => 2, fun s f =>
     extScalar f.ty (if s.sAmt f ≥ f.ty.width then 0 else s.sa f % 2 ^ f.ty.width / 2 ^ s.sAmt f)),
   (0x2B, .ssra, fun _ => 2, fun s f => extScalar f.ty (sraBits f.ty.width (s.sa f) (s.sAmt f))),
   (0x2F, .ssel, fun _ => 2, fun s f => if s.sc f != 0 then s.sa f else s.sb f),
   (0x30, .smov, fun _ => 2, fun s f => extScalar f.ty (s.sa f)),
   (0x31, .sbfe, fun _ => 2, fun s f =>
     bfeBits 64 f.ty.signed (s.sa f) (bits (s.sb f) 0 6) (bits (s.sb f) 8 7)),
   (0x32, .sbfi, fun _ => 2, fun s f => bfiBits 64 (s.sa f) (s.sb f) (bits (s.sc f) 0 6) (bits (s.sc f) 8 7)),
   (0x33, .spopc, fun _ => 2, fun s f => popBits f.ty.width (s.sa f)),
   (0x34, .sclz, fun _ => 2, fun s f => clzBits f.ty.width (s.sa f)),
   (0x35, .sctz, fun _ => 2, fun s f => ctzBits f.ty.width (s.sa f))]

/-- Words that read the gang's wider state into an s register (R116, R195, R301). -/
def scalarReads : List ScalarCase :=
  [(0x38, .rdlane, fun _ => 4, fun s f =>
     extScalar f.ty (s.vregs s.cyc (s.sopnd .n64 f.lit f.b % s.g.size) f.a.toNat f.ty.regs)),
   (0x96, .vote, fun s => 3 + s.g.passes, fun s f =>
     voteVal f.sub s.g.size (if f.sub = 3 then s.sopnd .n64 f.lit f.b else 0) (s.performing f.h)
       ((s.performing f.h).filter fun k => s.predNow k f.a)),
   (0xDC, .eqry, fun _ => 4, fun s f => s.queryWord (s.sreg s.cyc (sIdx f.a)) (f.b.toNat - 352))]

/-- A `pdesc` that acts takes the plane unit for one cycle (R173, R180). -/
def descAlso (s : State) (f : Fields) : Also := if s.acts f.h then { Also.none_ with units := [(.plane, 1)] } else .none_

/-- The scalar cases. -/
def scalarCases : List ScalarCase := scalarArith ++ scalarBits ++ scalarReads

/-- Lane words whose one effect is a lane register: opcode, constructor, registers written, latency, draws of `.rs` and the result in
a lane (R118 to R138). -/
abbrev LaneCase := Nat × (Fields → Instr) × (Fields → Nat) × Nat × (Fields → Nat) × (State → Fields → Nat → Nat)

/-- A result computed element by element (R119). -/
def each1 (op : Fields → Nat → Nat) (s : State) (f : Fields) (k : Nat) : Nat :=
  ofElems f.ty fun e => op f (elemOf f.ty (s.la f k) e)
def each2 (op : Fields → Nat → Nat → Nat) (s : State) (f : Fields) (k : Nat) : Nat :=
  ofElems f.ty fun e => op f (elemOf f.ty (s.la f k) e) (elemOf f.ty (s.lb f k) e)
/-- An element as a number of the type, and an exact result as an element: kept to w bits, or clamped under `.sat` (R66). -/
def num (f : Fields) (x : Nat) : Int := toInt f.ty.signed f.ty.width x
def elt (f : Fields) (x : Int) : Nat := keepInt f.ty.signed f.ty.width (f.sub % 2 = 1) x
def eltLow (f : Fields) (x : Int) : Nat := keepInt f.ty.signed f.ty.width false x

/-- An integer lane case. -/
def intCase (op : Nat) (c : Fields → Instr) (val : State → Fields → Nat → Nat) : LaneCase :=
  (op, c, fun f => f.ty.regs, 4, fun _ => 0, val)

/-- Integer arithmetic (R121, R126). -/
def laneArith : List LaneCase :=
  [intCase 0x40 .add (each2 fun f a b => elt f (num f a + num f b)),
   intCase 0x41 .sub (each2 fun f a b => elt f (num f a - num f b)),
   intCase 0x42 .mul (each2 fun f a b => elt f (num f a * num f b)),
   intCase 0x43 .mulh (each2 fun f a b => eltLow f (num f a * num f b / 2 ^ f.ty.width)),
   intCase 0x44 .mad fun s f k => ofElems f.ty fun e =>
     elt f (num f (elemOf f.ty (s.la f k) e) * num f (elemOf f.ty (s.lb f k) e) + num f (elemOf f.ty (s.lc f k) e)),
   intCase 0x45 .min (each2 fun f a b => eltLow f (min (num f a) (num f b))),
   intCase 0x46 .max (each2 fun f a b => eltLow f (max (num f a) (num f b))),
   intCase 0x47 .abs (each1 fun f a => elt f (num f a).natAbs),
   intCase 0x48 .neg (each1 fun f a => elt f (-(num f a))),
   intCase 0x5A .dot4 fun s f k => dot4Val f.ty (f.sub % 2 = 1) (s.la f k) (s.lb f k)
     (s.lopnd (if f.ty.signed then .i32 else .n32) f.lit k f.c),
   intCase 0x5B .lea fun s f k =>
     let c := s.lopnd .n32 f.lit k f.c
     (s.la f k + if c ≥ f.ty.width then 0 else s.lb f k * 2 ^ c) % 2 ^ f.ty.width]

/-- Bits, shifts and moves (R122 to R126). -/
def laneBits : List LaneCase :=
  [intCase 0x49 .and fun s f k => s.la f k &&& s.lb f k,
   intCase 0x4A .or fun s f k => s.la f k ||| s.lb f k,
   intCase 0x4B .xor fun s f k => s.la f k ^^^ s.lb f k,
   intCase 0x4C .not fun s f k => 2 ^ f.ty.width - 1 - s.la f k,
   intCase 0x4D .shl (each2 fun f a n => if n ≥ f.ty.width then 0 else a * 2 ^ n % 2 ^ f.ty.width),
   intCase 0x4E .shr (each2 fun f a n => if n ≥ f.ty.width then 0 else a % 2 ^ f.ty.width / 2 ^ n),
   intCase 0x4F .sra (each2 fun f a n => sraBits f.ty.width a n),
   intCase 0x50 .rotl fun s f k => rotlBits f.ty.width (s.la f k) (s.lb f k),
   intCase 0x51 .bfe fun s f k => bfeBits 32 f.ty.signed (s.la f k) (bits (s.lb f k) 0 5) (bits (s.lb f k) 8 6),
   intCase 0x52 .bfi fun s f k => bfiBits 32 (s.la f k) (s.lb f k) (bits (s.lc f k) 0 5) (bits (s.lc f k) 8 6),
   intCase 0x56 .brev fun s f k => brevBits f.ty.width (s.la f k),
   intCase 0x57 .sel fun s f k => if s.popnd k f.c then s.la f k else s.lb f k,
   intCase 0x59 .mov fun s f k => s.la f k,
   intCase 0x5C .prmt fun s f k => prmtVal (s.la f k) (s.lb f k) (s.lc f k)]

/-- Counts of bits, and predicates as words (R124, R140). -/
def laneCounts : List LaneCase :=
  [(0x53, .popc, fun _ => 1, 4, fun _ => 0, fun s f k => popBits f.ty.width (s.la f k)),
   (0x54, .clz, fun _ => 1, 4, fun _ => 0, fun s f k => clzBits f.ty.width (s.la f k)),
   (0x55, .ctz, fun _ => 1, 4, fun _ => 0, fun s f k => ctzBits f.ty.width (s.la f k)),
   (0x95, .pget, fun _ => 1, 2, fun _ => 0, fun s f k =>
     if s.popnd k f.a then (if f.sub = 1 then 0xFFFFFFFF else 1) else 0)]

/-- A float lane case: element by element, with one draw each where it rounds (R73, R128). -/
def floatCase (op : Nat) (c : Fields → Instr) (lat : Nat) (rounds : Bool) (val : State → Fields → Nat → Nat → Nat) : LaneCase :=
  (op, c, fun _ => 1, lat, fun f => if rounds then f.ty.elems else 0, fun s f k => ofElems f.ty fun e => val s f k e)
/-- Element e of A, B and C as exact values, and a value rounded by the instruction (R128). -/
def xa (s : State) (f : Fields) (k e : Nat) : FV := f.ty.fmt.val (elemOf f.ty (s.la f k) e)
def xb (s : State) (f : Fields) (k e : Nat) : FV := f.ty.fmt.val (elemOf f.ty (s.lb f k) e)
def xc (s : State) (f : Fields) (k e : Nat) : FV := f.ty.fmt.val (elemOf f.ty (s.lc f k) e)
def round (s : State) (f : Fields) (k e : Nat) (x : FV) : Nat := roundFV f.ty.fmt f.rnd false x (rho f.rnd (s.zOf k) e)
/-- A case of a special function (R132). -/
def specialCase (op : Nat) (c : Fields → Instr) : LaneCase :=
  floatCase op c 16 true fun s f k e => specialFn f.ty.fmt op f.rnd (elemOf f.ty (s.la f k) e) (rho f.rnd (s.zOf k) e)

/-- Float arithmetic: exact, then rounded once (R128 to R131). -/
def laneFloat : List LaneCase :=
  [floatCase 0x70 .fadd 6 true fun s f k e => round s f k e (FV.add f.rnd (xa s f k e) (xb s f k e)),
   floatCase 0x71 .fsub 6 true fun s f k e => round s f k e (FV.add f.rnd (xa s f k e) (xb s f k e).neg),
   floatCase 0x72 .fmul 6 true fun s f k e => round s f k e (FV.mul (xa s f k e) (xb s f k e)),
   floatCase 0x73 .fma 6 true fun s f k e =>
     round s f k e (FV.add f.rnd (FV.mul (xa s f k e) (xb s f k e)) (xc s f k e)),
   floatCase 0x74 .fmin 6 false fun s f k e =>
     fminmax f.ty.fmt false (f.sub = 1) (elemOf f.ty (s.la f k) e) (elemOf f.ty (s.lb f k) e),
   floatCase 0x75 .fmax 6 false fun s f k e =>
     fminmax f.ty.fmt true (f.sub = 1) (elemOf f.ty (s.la f k) e) (elemOf f.ty (s.lb f k) e),
   floatCase 0x76 .fabs 6 false fun s f k e => elemOf f.ty (s.la f k) e % 2 ^ (f.ty.width - 1),
   floatCase 0x77 .fneg 6 false fun s f k e => elemOf f.ty (s.la f k) e ^^^ 2 ^ (f.ty.width - 1),
   floatCase 0x79 .fclass 6 false fun s f k e => fclassMask f.ty.fmt (elemOf f.ty (s.la f k) e)]

/-- Special functions, rounding to integers and scaling (R132 to R135). -/
def laneSpecial : List LaneCase :=
  [specialCase 0x7A .rcp, specialCase 0x7B .rsqrt, specialCase 0x7C .sqrt, specialCase 0x7D .ex2, specialCase 0x7E .lg2,
   specialCase 0x7F .sinpi, specialCase 0x80 .cospi,
   floatCase 0x81 .frnd 6 true fun s f k e => frndVal f.ty.fmt f.rnd (elemOf f.ty (s.la f k) e) (rho f.rnd (s.zOf k) e),
   floatCase 0x82 .frac 6 true fun s f k e => fracVal f.ty.fmt f.rnd (elemOf f.ty (s.la f k) e) (rho f.rnd (s.zOf k) e),
   floatCase 0x83 .ldexp 6 true fun s f k e => ldexpVal f.ty.fmt f.rnd (elemOf f.ty (s.la f k) e)
     (toInt true 32 (s.lopnd .i32 f.lit k f.b)) (rho f.rnd (s.zOf k) e)]

/-- Conversions and the two-term dot product (R136, R137, R141). -/
def laneConvs : List LaneCase :=
  [(0x84, .cvt, fun f => f.ty.regs, 6, fun f => cvtCount f.ty (srcTy f), fun s f k =>
     cvtVal f.ty (srcTy f) f.rnd (f.sub % 2 = 1) (bits f.sub 1 2) (s.oldD f k) (s.lopnd (srcTy f) f.lit k f.a)
       (rho f.rnd (s.zOf k))),
   (0x86, .fdot2, fun _ => 1, 6, fun _ => 1, fun s f k =>
     roundFV Ty.f32.fmt f.rnd false
       (FV.add f.rnd (FV.add f.rnd (FV.mul (xa s f k 0) (xb s f k 0)) (FV.mul (xa s f k 1) (xb s f k 1)))
         (Ty.f32.fmt.val (s.lopnd .f32 f.lit k f.c))) (rho f.rnd (s.zOf k) 0))]

/-- The lane cases. -/
def laneCases : List LaneCase := laneArith ++ laneBits ++ laneCounts ++ laneFloat ++ laneSpecial ++ laneConvs

/-- Lane words whose one effect is a predicate: opcode, constructor, latency and truth in a lane (R54, R127, R130, R139, R140). -/
abbrev PredCase := Nat × (Fields → Instr) × Nat × (State → Fields → Nat → Bool)

/-- The predicate cases. -/
def predCases : List PredCase :=
  [(0x58, .icmp, 4, fun s f k => combine f.comb (compareElem f.ty f.cmp (s.la f k) (s.lb f k)) (s.popnd k f.c)),
   (0x78, .fcmp, 6, fun s f k => combine f.comb (compareElem f.ty f.cmp (s.la f k) (s.lb f k)) (s.popnd k f.c)),
   (0x90, .pand, 2, fun s f k => s.popnd k f.a && s.popnd k f.b),
   (0x91, .por, 2, fun s f k => s.popnd k f.a || s.popnd k f.b),
   (0x92, .pxor, 2, fun s f k => s.popnd k f.a != s.popnd k f.b),
   (0x93, .pnot, 2, fun s f k => !(s.popnd k f.a)),
   (0x94, .pset, 2, fun s f k => s.la f k != 0)]

/-! ## Words used by the statements -/

/-- The code address 4 · off away from pc: a value of 32 bits (R55, R90). -/
def away {w : Nat} (pc : Nat) (off : BitVec w) : Nat := (BitVec.ofNat 32 pc + 4 * off.signExtend 32).toNat

/-- The lanes that a `bperm` reads (R193). -/
def bpermAlso (s : State) (f : Fields) : Also := { Also.none_ with moved := (s.performing f.h).filterMap (s.bpermFrom f) }

/-- What lane k receives from `mvn` (R191). -/
def moved (u : State) (f : Fields) (k : Nat) : Nat :=
  let onX := f.sub % 2 = 0
  let ext : Int := if onX then u.g.gx else u.g.gy
  let c : Int := (if onX then u.g.kx k else u.g.ky k : Nat) - u.mvnDist f
  let j : Option Int :=
    if f.sub / 2 = 3 then some (c % ext)
    else if 0 ≤ c ∧ c < ext then some c
    else if f.sub / 2 = 2 then some (if c < 0 then 0 else ext - 1)
    else none
  match j with
  | some j => u.opndNow f.ty f.lit (if onX then u.g.ky k * u.g.gx + j.toNat else j.toNat * u.g.gx + u.g.kx k) f.a
  | none => if f.sub / 2 = 1 then u.sopnd f.ty f.lit f.c else 0

/-- The 32-bit word at an offset of a trap frame (R363). -/
def frameWord (fr : List Byte) (o : Nat) : Nat := leNat ((fr.drop o).take 4)

/-- What the return from a trap leaves of u in t, with the frame as it stands (R99, R363, R365). Lanes named for both slots are S0's; a slot with
no lane is free; a lane in no slot and on no stack entry that is left has exited; every other register of a lane stands. -/
def returned (u t : State) (form : Nat) : Prop :=
  let fr := u.ownSeen u.tframe 16
  let T := bits (frameWord fr 0) 8 1
  let m0 := leNat ((fr.drop 112).take 32) + u.g.hi0 * 2 ^ 256
  let m1 := leNat ((fr.drop 144).take 32) + u.g.hi1 * 2 ^ 256
  t.g.mode = false ∧ t.g.tcause = 0 ∧ t.g.hstack = 0 ∧ t.g.cur = T ∧ t.g.stackd = min (frameWord fr 68) u.g.kn.divd ∧
  t.g.regpc = frameWord fr 56 ∧ t.g.regcnt = (if form < 2 then frameWord fr 60 else 0) ∧
  (∀ k, t.g.s0.mask.testBit k = ((frameWord fr 32).testBit 16 && decide (k < u.g.size) && !(u.g.lane k).exited && m0.testBit k)) ∧
  (∀ k, t.g.s1.mask.testBit k =
    ((frameWord fr 48).testBit 16 && decide (k < u.g.size) && !(u.g.lane k).exited && m1.testBit k && !(m0.testBit k))) ∧
  (∀ n, n ≤ 1 → let y := t.g.slot n; let x := Slot.ofRecord ((fr.drop (24 + 16 * n)).take 16) u.cyc
    (y.mask = 0 → y = .freed u.cyc) ∧
    (y.mask ≠ 0 → y.live = true ∧ y.parked = x.parked ∧ y.join = x.join ∧ y.block = .none ∧ y.next = max x.next (u.cyc + 3) ∧
      (n ≠ T ∨ form = 0 → y.pc = x.pc ∧ y.rep = x.rep) ∧
      (n = T → form = 1 → x.rep.rep + 1 < x.rep.nrep → y.pc = x.pc ∧ y.rep = { x.rep with rep := x.rep.rep + 1 }) ∧
      (n = T → form = 1 → x.rep.nrep ≤ x.rep.rep + 1 → y.pc = x.pc + u.g.kn.lengthAt x.pc ∧ y.rep.nrep = 0) ∧
      (n = T → 2 ≤ form → y.pc = frameWord fr 56 ∧ y.rep.nrep = 0))) ∧
  (∀ k, k < u.g.size → k < u.g.lanes.length → (t.g.lane k).exited = ((u.g.lane k).exited || !(t.g.s0.mask.testBit k || t.g.s1.mask.testBit k ||
    (List.range t.g.stackd).any fun e => (u.stackMembers e).contains k))) ∧
  (∀ k, let l := t.g.lane k; let m := u.g.lane k
    l.v = m.v ∧ l.p = m.p ∧ l.o = m.o ∧ l.oh = m.oh ∧ l.l = m.l ∧ l.z = m.z) ∧
  t.g.s = u.g.s ∧ t.g.m = u.g.m ∧ t.g.k = u.g.k ∧ t.g.prom = u.g.prom ∧ t.mem = u.mem ∧ t.spad = u.spad ∧ t.others = u.others

/-- The least performing lane that holds lane k's key (R199). -/
def leader (u : State) (f : Fields) (k : Nat) : Nat :=
  ((u.performing f.h).find? fun j => u.opndNow f.ty f.lit j f.a = u.opndNow f.ty f.lit k f.a).getD k

/-- The leader that lane k names in `kadd`, the lanes that follow a leader and what the leader gathers (R200). -/
def follows (u : State) (f : Fields) (k : Nat) : Nat := u.opndNow .n32 .none k f.b
def behind (u : State) (f : Fields) (k : Nat) : List Nat := (u.performing f.h).filter fun m => m > k && follows u f m = k
def gathered (u : State) (f : Fields) (k : Nat) : Nat :=
  ((behind u f k).zipIdx).foldl (fun x p =>
    popVal 0 f.ty f.rnd false x (u.opndNow f.ty f.lit p.1 f.a) (rho f.rnd (u.zOf k) p.2)) (f.ty.canon (u.opndNow f.ty f.lit k f.a))

/-! ## Planes -/

/-- A plane word (R181 to R190): its opcode and constructor; whether it has sources A and B; what its entry asks of the descriptor in a
field; its latency and how long it takes the plane unit; the agreement of shapes that it asks for; the element of its result at a depth plane and index; and the draws it takes. -/
structure PlaneCase where
  op : Nat
  word : Fields → Instr
  hasA : Bool
  hasB : Fields → Bool
  ask : State → Fields → Nat → Desc → Bool
  lat : State → Fields → Nat
  folds : State → Fields → Bool
  takes : State → Fields → Nat
  val : State → State → Fields → Nat → Nat → Nat → Nat
  after : State → Fields → State → State

/-- The source planes with their field numbers, and all planes with what is asked of each. -/
def PlaneCase.srcs (x : PlaneCase) (u : State) (f : Fields) : List (Nat × Desc) :=
  (if x.hasA then [(1, u.descA f)] else []) ++ if x.hasB f then [(2, u.descB f)] else []
def PlaneCase.all (x : PlaneCase) (u : State) (f : Fields) : List (Nat × Desc × Bool) :=
  ((0, u.descD f) :: x.srcs u f).map fun p => (p.1, p.2, x.ask u f p.1 p.2)

/-- A type asked of every plane; b32 takes any (R183). -/
def asksType (_ : State) (f : Fields) (_ : Nat) (d : Desc) : Bool := f.ty = .b32 || d.fits f.ty
def asksNothing (_ : State) (_ : Fields) (_ : Nat) (_ : Desc) : Bool := true
/-- One shape, one folding and one width (R184, R187). -/
def sameAll (d a : Desc) : Bool := d.sameFold a && d.wid = a.wid

/-- pld and pst (R181). -/
def moveCase (op : Nat) (mk : Fields → Instr) (load : Bool) : PlaneCase :=
  { op := op, word := mk, hasA := true, hasB := fun _ => false
    ask := fun _ f i d => if i = 0 then d.fits f.ty && d.res != load else d.fits (Ty.ofCode f.pop) && d.res = load
    lat := fun u f => let p := if load then u.descA f else u.descD f; 8 + (p.n u.g * p.wb + 15) / 16
    takes := fun u f => let p := if load then u.descA f else u.descD f; (p.n u.g * p.wb + 15) / 16
    folds := fun u f => (u.descD f).sameFold (u.descA f)
    val := fun u s f dp x y => convElem f.ty (Ty.ofCode f.pop) f.rnd (f.sub = 1) (s.planeElem (u.descA f) dp x y)
      (s.elemRho (u.descD f) f.rnd dp x y)
    after := fun u f t => t.elemDraws f.h (u.descD f) f.rnd }

/-- pshift and prot (R182, R184): B holds the distance and, above it, the fill value. -/
def shiftCase (op : Nat) (mk : Fields → Instr) (rot : Bool) : PlaneCase :=
  { op := op, word := mk, hasA := true, hasB := fun _ => false, ask := asksNothing
    takes := fun u f => (u.descA f).n u.g
    lat := fun u f => 4 + (u.descA f).hops u.g f.ax rot (toInt true 32 (u.sopnd .b64 f.lit f.b)) + (u.descA f).n u.g
    folds := fun u f => sameAll (u.descD f) (u.descA f)
    val := fun u s f dp x y =>
      let n : Int := toInt true 32 (u.sopnd .b64 f.lit f.b)
      let p : Int := if f.ax then (u.descD f).py else (u.descD f).px
      let j : Int := (if f.ax then y else x : Nat) - n
      let at_ (j : Int) : Nat := if f.ax then s.planeElem (u.descA f) dp x j.toNat else s.planeElem (u.descA f) dp j.toNat y
      if rot then at_ (j % p)
      else if 0 ≤ j ∧ j < p then at_ j
      else if f.edge = 2 then at_ (if j < 0 then 0 else p - 1)
      else if f.edge = 1 then bits (u.sopnd .b64 f.lit f.b) 32 (8 * (u.descD f).wb) else 0
    after := fun _ _ t => t }

/-- Whether the trees of a fold or scan round stochastically, and their draws (R186, R187). -/
def treesDraw (f : Fields) : Bool := f.ty.isFloat && f.rnd = 4
def drawsOf (u : State) (f : Fields) (adj scan : Bool) : List ((Nat × Nat × Nat × Nat) × Nat) :=
  if treesDraw f then treeDraws (u.descA f) u.g f.ax adj scan else []

/-- pew: element by element (R183). -/
def pewCase : PlaneCase :=
  { op := 0xA4, word := .pew, hasA := true, hasB := fun f => f.pop != 10, ask := asksType
    lat := fun u f => 6 + (u.descD f).n u.g
    takes := fun u f => (u.descD f).n u.g
    folds := fun u f => (u.descD f).sameFold (u.descA f) && (f.pop = 10 || (u.descD f).sameFold (u.descB f))
    val := fun u s f dp x y => popVal f.pop f.ty f.rnd (f.sub = 1) (s.planeElem (u.descA f) dp x y)
      (s.planeElem (if f.pop != 10 then u.descB f else u.descA f) dp x y) (s.elemRho (u.descD f) f.rnd dp x y)
    after := fun u f t => if f.ty.isFloat && f.pop ≤ 2 then t.elemDraws f.h (u.descD f) f.rnd else t }

/-- pspread (R185). -/
def spreadCase : PlaneCase :=
  { op := 0xA7, word := .pspread, hasA := true, hasB := fun _ => false, ask := asksNothing
    takes := fun u f => (u.descD f).n u.g
    lat := fun u f => 6 + (min (if f.ax then u.g.gy else u.g.gx) 16).log2 + (u.descD f).n u.g
    folds := fun u f => (u.descA f).lpa f.ax = 0 && crossOk f.ax (u.descD f) (u.descA f) && (u.descD f).wid = (u.descA f).wid
    val := fun u s f dp x y => if f.ax then s.planeElem (u.descA f) dp x 0 else s.planeElem (u.descA f) dp 0 y
    after := fun _ _ t => t }

/-- prefold (R188). -/
def refoldCase : PlaneCase :=
  { op := 0xA9, word := .prefold, hasA := true, hasB := fun _ => false, ask := asksNothing
    takes := fun u f => 2 * (u.descA f).n u.g
    lat := fun u f => 8 + 2 * (u.descA f).n u.g +
      (if (u.descD f).fx != (u.descA f).fx && (u.descA f).px > u.g.gx then min u.g.gx 16 else 0) +
      (if (u.descD f).fy != (u.descA f).fy && (u.descA f).py > u.g.gy then min u.g.gy 16 else 0)
    folds := fun u f => (u.descD f).lpx = (u.descA f).lpx && (u.descD f).lpy = (u.descA f).lpy && (u.descD f).wid = (u.descA f).wid
    val := fun u s f dp x y => s.planeElem (u.descA f) dp x y
    after := fun _ _ t => t }

/-- ptrans (R189). -/
def transCase : PlaneCase :=
  { op := 0xAA, word := .ptrans, hasA := true, hasB := fun _ => false, ask := asksNothing
    lat := fun u f => 12 + 2 * (u.descA f).n u.g
    takes := fun u f => 2 * (u.descA f).n u.g
    folds := fun u f => u.g.gx = u.g.gy && (u.descD f).lpx = (u.descA f).lpy && (u.descD f).lpy = (u.descA f).lpx &&
      (u.descD f).fx = (u.descA f).fy && (u.descD f).fy = (u.descA f).fx && (u.descD f).wid = (u.descA f).wid
    val := fun u s f dp x y => s.planeElem (u.descA f) dp y x
    after := fun _ _ t => t }

/-- pfill (R190). -/
def fillCase : PlaneCase :=
  { op := 0xB0, word := .pfill, hasA := false, hasB := fun _ => false, ask := asksType
    lat := fun u f => 4 + (u.descD f).n u.g
    takes := fun u f => (u.descD f).n u.g
    folds := fun _ _ => true
    val := fun u _ f _ x y => if f.pop = 0 then u.sopnd f.ty f.lit f.a else if f.pop = 1 then x else y
    after := fun _ _ t => t }

/-- pfold: the halving tree, or the adjacent one on a cyclic axis (R161, R186). -/
def foldCase : PlaneCase :=
  { op := 0xA8, word := .pfold, hasA := true, hasB := fun _ => false, ask := asksType
    lat := fun u f => 8 + 2 * (u.descA f).lpa f.ax + (u.descA f).n u.g
    takes := fun u f => (u.descA f).n u.g
    folds := fun u f => (u.descD f).lpa f.ax = 0 && crossOk f.ax (u.descD f) (u.descA f)
    val := fun u s f dp x y =>
      let adj := (if f.ax then (u.descA f).fy else (u.descA f).fx) = 1
      f.ty.canon <| foldOf (s.lineTree f (u.descA f) adj (drawTable s (drawsOf u f adj false)) dp (if f.ax then x else y))
    after := fun u f t => if treesDraw f then
      t.drawLanes ((drawsOf u f ((if f.ax then (u.descA f).fy else (u.descA f).fx) = 1) false).map (·.2)) else t }

/-- pscan: the adjacent tree (R162, R187). -/
def scanCase : PlaneCase :=
  { op := 0xAB, word := .pscan, hasA := true, hasB := fun _ => false, ask := asksType
    lat := fun u f => 8 + 2 * (u.descA f).lpa f.ax + (u.descA f).n u.g
    takes := fun u f => (u.descA f).n u.g
    folds := fun u f => sameAll (u.descD f) (u.descA f)
    val := fun u s f dp x y =>
      let tab := drawTable s (drawsOf u f true true)
      let i := if f.ax then y else x
      let line := if f.ax then x else y
      let incl := inclusiveAt f ((u.descA f).lpa f.ax) (s.lineTree f (u.descA f) true tab dp line) tab dp line
      if f.sub / 2 = 1 then (if i = 0 then popIdentity f.pop f.ty (u.descD f).wb else incl (i - 1)) else incl i
    after := fun u f t => if treesDraw f then t.drawLanes ((drawsOf u f true true).map (·.2)) else t }

/-- The plane words that move elements or work on them one by one (R181 to R185, R188 to R190), and those with trees (R161, R162, R186, R187). -/
def planeMoves : List PlaneCase :=
  [moveCase 0xA2 .pld true, moveCase 0xA3 .pst false, pewCase, shiftCase 0xA5 .pshift false, shiftCase 0xA6 .prot true, spreadCase,
   refoldCase, transCase, fillCase]
def planeTrees : List PlaneCase := [foldCase, scanCase]

/-- The plane cases. -/
def planeCases : List PlaneCase := planeMoves ++ planeTrees

/-- What the issue of a plane word that acts looks at besides its fields: the registers of its valid descriptors, and the plane unit, which it
takes for the slabs that a lane processes (R33, R37, R173, R174). -/
def PlaneCase.also (x : PlaneCase) (s : State) (f : Fields) : Also :=
  Plan.also s f.h { dst := s.descD f, srcs := x.srcs s f, lat := x.lat s f, n := x.takes s f }

/-- The conditions under which a plane word that acts has its effect (R173, R177, R201). -/
def PlaneCase.ready (x : PlaneCase) (u : State) (f : Fields) : Prop :=
  checkDescs u.g (u.descD f).depth (x.all u f) = .ok () ∧ x.folds u f = true ∧ u.planeAccess f.h (u.descD f) (x.srcs u f) = .ok ()

/-! ## Scratchpad accesses -/

/-- The access of `sld` and `sst` (R114). -/
def uniAcc (u : State) (f : Fields) : Acc := u.linAcc 0 (u.addr f u.cyc 0) (accBytes f.ty)

/-- The lane loads and stores: opcode, constructor and the access of a lane (R142, R227). -/
def laneLoads : List (Nat × (Fields → Instr) × (State → Fields → Nat → Acc)) :=
  [(0xC0, .ldl, State.ldlAcc), (0xC2, .ldx, State.ldxAcc)]
def laneStores : List (Nat × (Fields → Instr) × (State → Fields → Nat → Acc)) :=
  [(0xC1, .stl, State.ldlAcc), (0xC3, .stx, State.ldxAcc)]

/-- The access and the effect in flight of `atoms` in lane k: it applies at the lane's latency, after the slot's single accesses and, with a
`.rel` part, after all that the slot has in flight (R230, R231). -/
def atomAcc (u : State) (f : Fields) (k : Nat) : Acc := u.linAcc k (u.oaddr f (u.laneCyc k) k) (aopBytes f.osub)
def atomTy (aop : Nat) : Ty :=
  if aop = 1 then .i64 else if aopBytes aop = 8 then .n64 else if aopTy aop = .f32 then .f32 else .n32
def atomSent (u : State) (f : Fields) (k : Nat) : Fx :=
  { due := u.laneCyc k + u.latency (.cf 0xC4 f), slot := u.g.tag, core := (atomAcc u f k).core, addr := (atomAcc u f k).addr u.coh
    len := aopBytes f.osub, deps := if f.ord = 2 ∨ f.ord = 3 ∨ f.ord = 4 then u.slotOps u.g.tag false else []
    num := u.draws + 1, rel := f.ord = 2 || f.ord = 3 || f.ord = 4, ret := u.laneCyc k + u.latency (.cf 0xC4 f)
    op := .atom f.osub (BitVec.ofNat 64 (u.lopnd (atomTy f.osub) f.lit k f.c))
      (BitVec.ofNat 64 (u.vregs (u.laneCyc k) k f.d.toNat (aopBytes f.osub / 4))) k f.d.toNat }

/-- A result of `atoms` takes the value of its RMW; where a lane takes no part, the l file takes what D holds (R22, R230). -/
def atomResult (u : State) (p : Pend) : Pend := if p.keep.isSome then p else { p with rmw := u.draws + 1 }

/-- The slot's next access waits for this issue's RMWs where their order kind has an `.acq` part (R231). -/
def acquires (u v : State) (f : Fields) : State := if f.ord = 1 ∨ f.ord = 3 ∨ f.ord = 4 then v.acquire [] [u.draws + 1] else v

def atomsLeft (u : State) (f : Fields) (v : State) : State := if u.lperforming f.h = [] then v else acquires u v f

/-- The barrier words that send an RMW: opcode, constructor, the objects they turn away with the field that the trap names, whether they read
the object, the RMW and the register of its result (R234, R237). -/
structure BarrierCase where
  op : Nat
  word : Fields → Instr
  refuses : State → Fields → Barr → Bool
  field : Nat
  kind : AccKind
  sends : State → Fields → FxOp
  res : Fields → Option Nat

/-- bini, barv, bexp and bdrop (R237). -/
def barrierCases : List BarrierCase :=
  [{ op := 0xC6, word := .bini, refuses := fun u f _ => BitVec.ofNat 32 (u.sopnd .n32 f.lit f.c) = 0, field := 3, kind := .write
     sends := fun u f => .bini (BitVec.ofNat 32 (u.sopnd .n32 f.lit f.c)), res := fun _ => none },
   { op := 0xC7, word := .barv, refuses := fun _ _ b => b.remaining > b.expected || b.remaining = 0, field := 1, kind := .rmw
     sends := fun u f => .barv (u.oaddr f u.cyc 0) (dOpt f.d), res := fun f => dOpt f.d },
   { op := 0xC8, word := .bexp, refuses := fun _ _ b => b.remaining > b.expected, field := 1, kind := .rmw
     sends := fun u f => .bexp (BitVec.ofNat 32 (u.sopnd .i32 f.lit f.c)), res := fun _ => none },
   { op := 0xC9, word := .bdrop, refuses := fun _ _ b => b.remaining > b.expected || b.remaining = 0 || b.expected = 0, field := 1
     kind := .rmw, sends := fun u f => .bdrop (u.oaddr f u.cyc 0) (dOpt f.d), res := fun f => dOpt f.d }]

/-- The effect in flight of such a word (R231, R238). -/
def BarrierCase.sent (x : BarrierCase) (u : State) (f : Fields) : Fx :=
  { due := u.cyc + u.latency (.cf x.op f), slot := u.g.tag, core := (u.barAcc f).core, addr := (u.barAcc f).addr u.coh, len := 16
    deps := if f.ord = 2 ∨ f.ord = 3 ∨ f.ord = 4 then u.slotOps u.g.tag false else [], num := u.draws + 1
    rel := f.ord = 2 || f.ord = 3 || f.ord = 4
    ret := if (x.res f).isSome then u.cyc + u.latency (.cf x.op f) else 0, op := x.sends u f }

/-- Its result in flight: the condition word that the RMW leaves, in sD (R237). -/
def BarrierCase.result (x : BarrierCase) (u : State) (f : Fields) : List Pend :=
  match x.res f with
  | none => []
  | some n => [{ u.result (u.cyc + u.latency (.cf x.op f)) (.s n) 0 with rmw := u.draws + 1 }]

/-- The object that an RMW leaves of one with expected count e, remaining count r, pending count p and control word c: a phase ends where
nothing remains and nothing is pending; its count starts anew, GEN counts up and PH flips (R235 to R238). -/
def phased (e r p gen ph dp : Nat) : List Byte :=
  if r = 0 ∧ p = 0 then leBytes 4 e ++ leBytes 4 e ++ leBytes 4 p ++ leBytes 4 ((gen + 1) % 2 ^ 16 * 2 ^ 16 + (1 - ph))
  else leBytes 4 e ++ leBytes 4 r ++ leBytes 4 p ++ leBytes 4 (gen * 2 ^ 16 + 2 * dp + ph)

/-! ## Engines and the matrix unit -/

/-- A single access by lanes (R244, R245): opcode, constructor, bytes that its addresses are aligned to, bytes of its scratchpad side,
whether it writes that side and whether it reads it. -/
structure SingleCase where
  op : Nat
  word : Fields → Instr
  size : Fields → Nat
  len : Fields → Nat
  dst : Fields → Bool
  src : Bool

/-- gld, gst and gatom. -/
def singleCases : List SingleCase :=
  [{ op := 0xD0, word := .gld, size := singleSize, len := singleSize, dst := fun _ => true, src := false },
   { op := 0xD1, word := .gst, size := singleSize, len := singleSize, dst := fun _ => false, src := true },
   { op := 0xD2, word := .gatom, size := fun f => aopBytes (gatomAop f.c.toNat), len := fun f => gatomLen f.c.toNat
     dst := fun f => !(gatomRed f.c.toNat), src := true }]

/-- The index engine's words: opcode and constructor (R294 to R296). -/
def indexCases : List (Nat × (Fields → Instr)) := [(0xD5, .gth), (0xD6, .sct), (0xD7, .probe)]

/-- The scratchpad offset of a lane, and the locks, of such a word. -/
def indexOff (op : Nat) (u : State) (g : Fields) (k : Nat) : Nat := if op = 0xD7 then 0 else u.sideOff g k
def indexLocks (op : Nat) (w v : State) (g : Fields) (eb : Nat) : List Lock :=
  (if op = 0xD7 then [] else v.sideLock (w.performing g.h) (w.sideOff g) eb (op = 0xD5)) ++ v.auxLock (w.auxWord g)

/-- The plan of a `cpy`: its checks passed, what it locks and reads (R286, R289 to R293). u gives its operands, v its records. -/
def cpyPlan (u v : State) (g : Fields) : Except Flt CopyPlan :=
  let aw := u.sreg u.cyc (sIdx g.a)
  let bw := u.sreg u.cyc (sIdx g.b)
  let w := u.auxWord g
  let n := if cpyForm g = 4 then u.sopnd .n64 g.lit g.c else 0
  match cpyForm g with
  | 0 => planLane v g w aw bw.toNat 1 2 false
  | 1 => planGc v g w aw.toNat bw.toNat
  | 2 => planLane v g w bw aw.toNat 2 1 true
  | 3 => planGb v g w aw.toNat bw.toNat
  | 4 => planSs v { v.opBase 0xD4 1 g with aval := aw, bval := bw, cval := BitVec.ofNat 64 n, aux := w } aw bw w n
  | _ => planGg v g w aw.toNat bw.toNat

/-- A matrix word (R317 to R336): what its entry asks; its scratchpad operands, the bytes, blocks or plane and the planes read that no lock may cover; what its issue looks at besides its fields; its locks; whether it completes at issue; its core
cycles; the state after the slot's RMWs on a plane that it reads; and its operands. -/
structure MatrixCase where
  op : Nat
  word : Fields → Instr
  asks : State → Fields → Prop
  addrs : State → Fields → List (Nat × Nat × Nat)
  spans : State → Fields → List MatSpan := fun _ _ => []
  blocks : State → Fields → List Lock := fun _ _ => []
  reads : State → Fields → List Span := fun _ _ => []
  also : State → Fields → Also := noAlso
  locks : State → Fields → List Lock
  noop : State → Fields → Bool := fun _ _ => false
  dur : State → Fields → Nat
  after : State → Fields → State := fun u _ => u
  aval : State → Fields → W64 := fun u g => u.sreg u.cyc (sIdx g.a)
  bval : State → Fields → W64 := fun u g => BitVec.ofNat 64 (u.wordB g)

/-- What the issue of one that acts looks at. -/
def MatrixCase.acting (x : MatrixCase) (s : State) (f : Fields) : Also := if s.acts f.h then x.also s f else .none_

/-- mma and mmasp (R317 to R321). -/
def mmaCase (op : Nat) (word : Fields → Instr) (sparse : Bool) : MatrixCase :=
  let x (u : State) (g : Fields) : MmaWord := .ofNat (u.wordB g)
  let mask (u : State) (g : Fields) : W256 := if g.mmode = 0 then 0 else u.maskReg g.mreg
  let noop (u : State) (g : Fields) : Bool := (x u g).m = 0 || (x u g).nt = 0
  let na (u : State) (g : Fields) : Nat := if noop u g then 0 else blockLen * (x u g).kb
  let nm (u : State) (g : Fields) : Nat :=
    if noop u g || !sparse then 0 else metaLen g.xsub * ((x u g).nt * (x u g).perTile sparse)
  let c (u : State) (g : Fields) : Nat := if sparse then (u.sreg u.cyc (sIdx g.c)).toNat else 0
  { op := op, word := word
    asks := fun u g => (x u g).acc + (x u g).nt ≤ 4 ∧ farAddr (u.addrA g) = false ∧ (x u g).valid sparse g.mmode = true ∧
      ∀ b < (x u g).nt * (x u g).perTile sparse, let t := (u.tagsAhead u.g.core).getD ((x u g).bf + b) .plain
        if sparse then t = .sparse g.xsub else t.dense = true
    addrs := fun u g => [(1, u.addrA g, na u g)] ++ if sparse then [(3, c u g, nm u g)] else []
    spans := fun u g => if noop u g then [] else u.aSpan false (u.addrA g) (na u g) ++ u.linSpan false (c u g) (nm u g)
    blocks := fun u g => if noop u g then [] else u.bLock u.leader (x u g).bf ((x u g).nt * (x u g).perTile sparse) false
    locks := fun u g => if noop u g then [] else u.aLocks false (u.addrA g) (na u g) ++
      u.bLock u.leader (x u g).bf ((x u g).nt * (x u g).perTile sparse) false ++ u.padLock false (c u g) (nm u g)
    noop := noop
    dur := fun u g => 24 + (g.pln + 1) *
      (((x u g).tiles g.mmode (mask u g)).length * ((x u g).blocks sparse g.mmode (mask u g)).length) }

/-- scout (R322, R323). -/
def scoutCase : MatrixCase :=
  let x (u : State) (g : Fields) : ScoutWord := .ofNat (u.wordB g)
  let noop (u : State) (g : Fields) : Bool := (x u g).m = 0 || (x u g).nk = 0
  let na (u : State) (g : Fields) : Nat := if noop u g then 0 else blockLen * (x u g).kb
  { op := 0xE2, word := .scout
    asks := fun u g => farAddr (u.addrA g) = false ∧ (x u g).valid = true ∧
      ∀ b < (x u g).nk * (x u g).kb, ((u.tagsAhead u.g.core).getD ((x u g).bf + b) .plain).dense = true
    addrs := fun u g => [(1, u.addrA g, na u g)], spans := fun u g => u.aSpan false (u.addrA g) (na u g)
    blocks := fun u g => if noop u g then [] else u.bLock u.leader (x u g).bf ((x u g).nk * (x u g).kb) false
    locks := fun u g => if noop u g then [] else u.aLocks false (u.addrA g) (na u g) ++
      u.bLock u.leader (x u g).bf ((x u g).nk * (x u g).kb) false
    noop := noop, dur := fun u g => 24 + (g.pln + 1) * (x u g).nk * (x u g).kb }

/-- hzn (R324, R325) and azero (R329), which read no scratchpad. -/
def hznCase : MatrixCase :=
  { op := 0xE3, word := .hzn, asks := fun u g => (HznWord.ofNat (u.sopnd .b64 g.lit g.a)).valid = true
    addrs := fun _ _ => [], locks := fun _ _ => [], dur := fun u g => 24 + (HznWord.ofNat (u.sopnd .b64 g.lit g.a)).t
    aval := fun u g => BitVec.ofNat 64 (u.sopnd .b64 g.lit g.a), bval := fun u g => BitVec.ofNat 64 (u.sopnd .f32 g.lit g.b) }
def azeroCase : MatrixCase :=
  { op := 0xE5, word := .azero, asks := fun _ _ => True, addrs := fun _ _ => [], locks := fun _ _ => []
    noop := fun _ g => (azeroSet g.a.toNat).isEmpty, dur := fun _ g => 24 + 16 * (azeroSet g.a.toNat).length
    aval := fun _ g => BitVec.ofNat 64 g.a.toNat, bval := fun _ _ => 0 }

/-- drain to a plane or to blocks (R327, R328). -/
def drainCase : MatrixCase :=
  let d (u : State) (g : Fields) : Desc := .ofWord (u.sreg u.cyc (sIdx g.a))
  { op := 0xE4, word := .drain
    asks := fun u g => bits (u.wordB g) 13 51 = 0 ∧
      if g.sub % 2 = 0 then (d u g).drains u.g g.ty = true ∧ u.planeInside (d u g) = true else farAddr (u.addrA g) = false
    also := fun u g => maskAlso (g.sub.testBit 1) (bits (u.wordB g) 2 3)
    addrs := fun u g => if g.sub % 2 = 0 then [] else [(1, u.addrA g, 4 * blockLen)]
    spans := fun u g => if g.sub % 2 = 0 then [] else u.aSpan true (u.addrA g) (4 * blockLen)
    blocks := fun u g => if g.sub % 2 = 0 then [u.planeLock (d u g) true] else []
    locks := fun u g => if g.sub % 2 = 0 then [u.planeLock (d u g) true] else u.aLocks true (u.addrA g) (4 * blockLen)
    dur := fun _ _ => 152 }

/-- qnt, which reads its plane at issue (R330), and trq (R331). -/
def qntCase : MatrixCase :=
  let d (u : State) (g : Fields) : Desc := .ofWord (u.sreg u.cyc (sIdx g.b))
  { op := 0xE6, word := .qnt
    also := State.qntAlso
    asks := fun u g => (d u g).valid u.g = true ∧ farAddr (u.addrA g) = false ∧
      ((d u g).wid = 0 ∧ (d u g).ld = 0 ∧ 5 ≤ (d u g).lpx ∧ (d u g).lpx ≤ 9 ∧ (d u g).lpy ≤ 7) ∧
      ((d u g).res = true → u.planeInside (d u g) = true)
    addrs := fun u g => [(1, u.addrA g, blockLen * ((d u g).px / 32))]
    spans := fun u g => u.aSpan true (u.addrA g) (blockLen * ((d u g).px / 32)), reads := fun u g => u.planeSpans (d u g)
    locks := fun u g => u.aLocks true (u.addrA g) (blockLen * ((d u g).px / 32))
    dur := fun u g => 24 + 8 * ((d u g).px / 32), after := fun u g => u.planeSettle [(2, d u g)]
    bval := fun u g => u.sreg u.cyc (sIdx g.b) }
def trqCase : MatrixCase :=
  let b (u : State) (g : Fields) : Nat := (u.sreg u.cyc (sIdx g.b)).toNat
  { op := 0xE7, word := .trq
    asks := fun u g => farAddr (u.addrA g) = false ∧ farAddr (b u g) = false ∧
      (u.addrA g + 4 * blockLen ≤ b u g ∨ b u g + 4 * blockLen ≤ u.addrA g)
    addrs := fun u g => [(1, u.addrA g, 4 * blockLen), (2, b u g, 4 * blockLen)]
    spans := fun u g => u.aSpan true (u.addrA g) (4 * blockLen) ++ u.aSpan false (b u g) (4 * blockLen)
    locks := fun u g => u.aLocks true (u.addrA g) (4 * blockLen) ++ u.aLocks false (b u g) (4 * blockLen)
    dur := fun _ _ => 280, bval := fun u g => u.sreg u.cyc (sIdx g.b) }

/-- bput (R332, R333), mrd and mwr (R335, R336). -/
def bputCase : MatrixCase :=
  let x (u : State) (g : Fields) : BputWord := .ofNat (u.wordB g)
  let n (u : State) (g : Fields) : Nat := (x u g).len (g.sub % 4) * (x u g).count
  { op := 0xE8, word := .bput, asks := fun u g => (x u g).valid (g.sub % 4) = true
    addrs := fun u g => [(1, u.addrA g, n u g)], spans := fun u g => u.linSpan false (u.addrA g) (n u g)
    blocks := fun u g => u.bLock (coreOf u.coh.pair ((u.g.core + (x u g).core) % 2)) (x u g).first (x u g).count true
    locks := fun u g => u.padLock false (u.addrA g) (n u g) ++
      u.bLock (coreOf u.coh.pair ((u.g.core + (x u g).core) % 2)) (x u g).first (x u g).count true
    noop := fun u g => (x u g).count = 0, dur := fun u g => 24 + (x u g).cycles (g.sub % 4) * (x u g).count }
def selCase (op : Nat) (word : Fields → Instr) (rd : Bool) : MatrixCase :=
  let x (u : State) (g : Fields) : SelWord := .ofNat (u.wordB g)
  { op := op, word := word
    asks := fun u g => (x u g).valid (g.sub % 4) = true
    also := fun u g => if rd then maskAlso (g.sub % 4 = 3) (x u g).mreg else .none_
    addrs := fun u g => [(1, u.addrA g, (x u g).bytes (g.sub % 4))]
    spans := fun u g => u.linSpan rd (u.addrA g) ((x u g).bytes (g.sub % 4))
    locks := fun u g => u.padLock rd (u.addrA g) ((x u g).bytes (g.sub % 4))
    noop := fun u g => (x u g).bytes (g.sub % 4) = 0, dur := fun u g => 24 + ((x u g).bytes (g.sub % 4) + 255) / 256 }

/-- The matrix cases. -/
def matrixCases : List MatrixCase :=
  [mmaCase 0xE0 .mma false, mmaCase 0xE1 .mmasp true, scoutCase, hznCase, drainCase, azeroCase, qntCase, trqCase, bputCase,
   selCase 0xEA .mrd true, selCase 0xEB .mwr false]


/-- The accesses of a command that the block of partition n takes: it is enabled and no command is busy (R399). -/
def takesCmd (s : State) (n : Nat) : Prop := s.mg.status = 2 ∧ (s.part n).en = true ∧ (s.part n).cmd.status ≠ 1 ∧ n < s.parts.length

/-- Command cmd of partition n is taken: t holds it busy, as the state u that its effect leaves otherwise stands (R399). -/
def busyWith (t u : State) (n cmd a0 a1 a2 : Nat) : Prop :=
  t = u.setPart n { u.part n with cmd := { cmd := cmd, a0 := a0, a1 := a1, a2 := a2, status := 1 } }

/-- The 64 bytes of a command write (R399). -/
def commandBytes (c a0 a1 a2 : Nat) : List Byte := leBytes 8 c ++ leBytes 8 a0 ++ leBytes 8 a1 ++ leBytes 8 a2 ++ leBytes 32 0

/-- The command that CMD and ARG0 to ARG2 name, its unused arguments zero (R399's table). -/
def commandStep (n c a0 a1 a2 : Nat) : Option Instr :=
  match c, a0, a1, a2 with
  | 1, q, seq, d => some (.preempt n q seq d)
  | 2, q, seq, d => some (.resume n q seq d)
  | 3, q, seq, 0 => some (.endLaunch n q seq)
  | 4, pasid, first, bytes => some (.inval n pasid first bytes)
  | 5, pasid, 0, 0 => some (.revoke n pasid)
  | 6, pasid, 0, 0 => some (.allow n pasid)
  | 7, q, prio, 0 => some (.qpri n q prio)
  | 8, 0, 0, 0 => some (.halt n)
  | 9, image, 0, 0 => some (.swap n image)
  | _, _, _, _ => none

/-- Command cmd of partition n is refused: t is s with STATUS 3 (R399). -/
def refusedCmd (t s : State) (n cmd a0 a1 a2 : Nat) : Prop :=
  t = s.setPart n { s.part n with cmd := { cmd := cmd, a0 := a0, a1 := a1, a2 := a2, status := 3 } }

/-! ## Words and their units -/

/-- A header with a guard and nothing else, and fields under it. -/
def under (g : BitVec 4) : Hdr := { n := false, g := g, stall := 0, region := false }
def fields (g : BitVec 4) (d a b c : BitVec 9) (minor : BitVec 10) (lit : Lit) : Fields :=
  { h := under g, d := d, a := a, b := b, c := c, minor := minor, lit := lit }

/-- Words of each format class as the spec writes them out, with what they stand for (R43 to R62): s and p registers from 256 and 320 on,
the constants -1 and 0 at 368 and 352, a literal at 384. -/
def sampleWords : List (List W32 × Instr) :=
  [([0x8B8000C0, 0x24002130], .sdiv (fields 0 265 264 368 0 0xC0 .none)),
   ([0x8B000250, 0x78002832], .fcmp (fields 0 321 296 352 0 0x250 .none)),
   ([0x00000000, 0x0B000F70], .rpt { h := under 0, nrep := 15, mask := 7, strd := 0 }),
   ([0xFFFFE800, 0x0200001F], .bra { h := under 0, d := 0, off := -6, join := none, sub := 0 }),
   ([0x00001A00, 0x05002820, 0x0000000A], .brv { h := under 0, d := 321, off := 6, join := some 10, sub := 0 }),
   ([0x5B1001B2, 0xC3000070], .stx (fields 0 3 261 354 0 0x1B2 .none)),
   ([0x400414A0, 0xC4000030], .atoms (fields 0 1 260 0 261 0xA0 .none)),
   ([0x6B0D8001, 0xCB0020F0], .wait (fields 0 263 262 353 352 1 .none)),
   ([0x90000240, 0xA8002150], .pfold (fields 0 266 265 0 0 0x240 .none)),
   ([0x48980D22, 0xD1082592], .gst (fields 1 300 292 275 3 0x122 .none)),
   ([0x884801A5, 0xE0002290], .mma (fields 0 276 264 265 0 0x1A5 .none)),
   ([0xA8860242, 0xE40024F0, 0xFF800000], .drain (fields 0 295 266 272 384 0x242 (.w32 0xFF800000))),
   ([0x40000000, 0x13002280], .launch (fields 0 276 4 0 0 0 .none))]

/-- Whether the spec assigns an opcode (R64). -/
def assigned (op : Nat) : Bool :=
  [(0x01, 0x14), (0x20, 0x3B), (0x40, 0x5C), (0x70, 0x86), (0x90, 0x96), (0xA0, 0xB0), (0xC0, 0xCC), (0xD0, 0xDD), (0xE0, 0xEB)].any
    fun r => r.1 ≤ op && op ≤ r.2

/-- The gang-uniform words with operand fields but `sld` and `sst` (R89): scalar, control and system words, plane words, and the words of
the engines and of the matrix unit. -/
def uniformOps : List Nat :=
  [0x0D, 0x0E, 0x0F, 0x10, 0x13] ++ (List.range 22).map (0x20 + ·) ++ [0x38, 0x39, 0x3A, 0x3B, 0x96] ++
  (List.range 12).map (0xA1 + ·) ++ [0xB0] ++ (List.range 7).map (0xC5 + ·) ++ (List.range 14).map (0xD0 + ·) ++
  (List.range 12).map (0xE0 + ·)

/-- The word traps with e, and has no effect (R41, R362). -/
def traps (s : State) (op : Nat) (f : Fields) (e : Flt) : Host.Outcome State Fault Refusal :=
  .next (takeTrap s.land.takeIssue e (encFields op f) (litOf (.cf op f)))

/-- The words of one memory access that an earlier `.acq` part of their slot holds (R231, R247). -/
def accessOps : List Nat :=
  [0x36, 0x37, 0xAC] ++ (List.range 5).map (0xC0 + ·) ++ (List.range 5).map (0xC6 + ·) ++ (List.range 9).map (0xD0 + ·)

/-- A word as the repetition at hand reads it (R62). -/
def stepView (s : State) : View → View
  | .cf op f => .cf op (s.stepped f)
  | v => v

/-- What the issue of a word looks at besides its fields (R33, R37, R173, R191, R193). -/
def alsoOf (s : State) : View → Also
  | .cf op f =>
    if op = 0xA0 then s.mvnAlso f else if op = 0xAD then bpermAlso s f else if op = 0xA1 then descAlso s f
    else match planeCases.find? (fun x => x.op = op) with
      | some x => x.also s f
      | none => match matrixCases.find? (fun x => x.op = op) with
        | some x => x.acting s f
        | none => .none_
  | _ => .none_

/-- From s to t a pair changes at most in the units that issues take (R34). -/
def samePairs (s t : State) : Prop := ∀ n, { t.pair n with busy := [] } = { s.pair n with busy := [] }

/-- From s to t nothing changes but the issuing gang, the count of draws and the units that issues take. -/
def sameAround (s t : State) : Prop :=
  { t with g := .idle, draws := 0, pairs := [] } = { s with g := .idle, draws := 0, pairs := [] } ∧ samePairs s t

/-! ## Registers and bytes -/

/-- A register that a gang holds: v, s, p, o, l, m or k, in its lanes and banks (R19 to R23, R145, R317). -/
def tgtOk (g : Gang) : Tgt → Prop
  | .v k n => k < g.lanes.length ∧ n < (g.lane k).v.length
  | .s n => n < g.s.length
  | .p k n => k < g.lanes.length ∧ n < 16
  | .o k b n => k < g.lanes.length ∧ b < 2 ∧ n < (if b = 0 then (g.lane k).o else (g.lane k).oh).length
  | .l k b i => k < g.lanes.length ∧ b < 2 ∧ i < 2 ∧ lIdx b i + 1 < (g.lane k).l.length
  | .m n => n < g.m.length
  | .k n => n < g.k.length
  | .sys _ => False
  | .bc _ => False

/-- What such a register holds of a value (R19 to R23). -/
def holds : Tgt → Nat → Nat
  | .v .., x => x % 2 ^ 32
  | .o .., x => x % 2 ^ 32
  | .m .., x => x % 2 ^ 256
  | .p _ n, x => if n = 0 ∨ x ≠ 0 then 1 else 0
  | _, x => x % 2 ^ 64

end Sys2Proof.Claims

open Sys2Proof Sys2Proof.Machine Sys2Proof.Claims

/-! ## Scalar and lane words -/

/-- R106 to R112, R116, R180, R195, R301: a scalar word that acts writes its result to sD at t + its latency, and goes on. -/
def Obligations.ScalarResults : Prop :=
  (∀ x ∈ scalarCases, ∀ f s, s.letsF x.1 f → let u := s.readsF x.1 f; let g := s.stepped f
     u.acts f.h = true → exec (x.2.1 f) s =
       .next (s.pastF (u.addPends [u.result (u.cyc + x.2.2.1 u) (.s (g.d.toNat - 256)) (x.2.2.2 u g)]) x.1 f (.seq 1))) ∧
  (∀ f s, s.letsF 0xA1 f descAlso → let u := s.readsF 0xA1 f descAlso; let g := s.stepped f
     u.acts f.h = true → exec (.pdesc f) s =
       .next (s.pastF (u.addPends [u.result (u.cyc + 2) (.s (g.d.toNat - 256)) (pdescWord (u.descA g) u.g)]) 0xA1 f (.seq 1) descAlso))

/-- R118 to R138, R140, R151: a lane word writes its result in the performing lanes, pass by pass, takes its draws, and goes on. -/
def Obligations.LaneResults : Prop :=
  ∀ x ∈ laneCases, ∀ f s, s.letsF x.1 f → let u := s.readsF x.1 f; let g := s.stepped f
    exec (x.2.1 f) s =
      .next (s.pastF ((u.draw f.h g.rnd (x.2.2.2.2.1 g)).addPends
        (u.laneResults f.h g.d (x.2.2.1 g) x.2.2.2.1 (x.2.2.2.2.2 u g))) x.1 f (.seq u.g.passes))

/-- R54, R127, R130, R139, R140: a word that writes a predicate writes it in the performing lanes, and goes on. -/
def Obligations.PredicateResults : Prop :=
  ∀ x ∈ predCases, ∀ f s, s.letsF x.1 f → let u := s.readsF x.1 f; let g := s.stepped f
    exec (x.2.1 f) s =
      .next (s.pastF ((u.draw f.h g.rnd 0).addPends ((u.lperforming f.h).map fun k =>
        u.result (u.laneCyc k + x.2.2.1) (.p k (g.d.toNat - 320)) (if x.2.2.2 u g k then 1 else 0))) x.1 f (.seq u.g.passes))

/-! ## Control words -/

/-- R93: nop changes no register, no memory and no operation; it takes one cycle and its STALL, and with REGION set it is a region entry. -/
def Obligations.NopDoesNothing : Prop :=
  ∀ f s, (Instr.nop f).wellFormed = true → s.letsF 0x01 f → ∃ t, exec (.nop f) s = .next t ∧
    t.g.s = s.land.g.s ∧ t.g.m = s.land.g.m ∧ t.g.k = s.land.g.k ∧ t.g.lanes = s.land.g.lanes ∧ t.g.pend = s.land.g.pend ∧
    t.g.fx = s.land.g.fx ∧ t.g.prom = s.land.g.prom ∧ t.mem = s.land.mem ∧ t.spad = s.land.spad ∧ t.ops = s.land.ops ∧
    t.cohorts = s.land.cohorts ∧ samePairs s.land t ∧ t.others = s.land.others ∧
    t.g.here.mask = s.land.g.here.mask ∧ t.g.here.pc = s.land.g.here.pc + 8 ∧
    t.g.here.next = s.land.cyc + 1 + f.h.stall.toNat ∧
    (f.h.region = true → t.g.regpc = s.land.g.here.pc ∧ t.g.regcnt = 0) ∧
    (f.h.region = false → t.g.regpc = s.land.g.regpc ∧ t.g.regcnt = min (s.land.g.regcnt + 1) 0xFFFFFFFF)

/-- R55, R62, R90, R91, R94, R95, R97, R100: branches, jumps, calls and returns that act go where they say, and calls leave the address after
them in s63; one through a register whose bits <1:0> are not zero raises MISALIGNED. `rpt` sets the repeat of the next instruction, and `yield`
issues and makes its gang the one most recently issued. -/
def Obligations.ControlGoes : Prop :=
  ((∀ f s, s.letsJ 0x02 f → let u := s.readsJ 0x02 f; u.acts f.h = true →
      exec (.bra f) s = .next (s.pastJ u 0x02 f (.goto (away u.g.here.pc f.off)))) ∧
   (∀ f s, s.letsJ 0x03 f → let u := s.readsJ 0x03 f; u.acts f.h = true →
      (u.sreg u.cyc (f.d.toNat - 256) = 0 → exec (.brz f) s = .next (s.pastJ u 0x03 f (.goto (away u.g.here.pc f.off)))) ∧
      (u.sreg u.cyc (f.d.toNat - 256) ≠ 0 → exec (.brz f) s = .next (s.pastJ u 0x03 f (.seq 1)))) ∧
   (∀ f s, s.letsJ 0x04 f → let u := s.readsJ 0x04 f; u.acts f.h = true →
      (u.sreg u.cyc (f.d.toNat - 256) ≠ 0 → exec (.brnz f) s = .next (s.pastJ u 0x04 f (.goto (away u.g.here.pc f.off)))) ∧
      (u.sreg u.cyc (f.d.toNat - 256) = 0 → exec (.brnz f) s = .next (s.pastJ u 0x04 f (.seq 1)))) ∧
   (∀ f s, s.letsJ 0x0A f → let u := s.readsJ 0x0A f; u.acts f.h = true →
      let n := u.sreg u.cyc (f.d.toNat - 256)
      let v := u.addPends [u.result (u.cyc + 2) (.s (f.d.toNat - 256)) (n - 1).toNat]
      (n ≠ 1 → exec (.loop f) s = .next (s.pastJ v 0x0A f (.goto (away u.g.here.pc f.off)))) ∧
      (n = 1 → exec (.loop f) s = .next (s.pastJ v 0x0A f (.seq 1))))) ∧
  ((∀ f s, s.letsJ 0x07 f → let u := s.readsJ 0x07 f; u.acts f.h = true →
      exec (.call f) s = .next (s.pastJ (u.addPends [u.result (u.cyc + 2) (.s 63) (u.g.here.pc + 8)]) 0x07 f
        (.goto (away u.g.here.pc f.off)))) ∧
   (∀ f s, s.letsJ 0x08 f → let u := s.readsJ 0x08 f; u.acts f.h = true → let a := (u.sreg u.cyc (f.d.toNat - 256)).toNat
      (a % 4 = 0 → exec (.callr f) s = .next (s.pastJ (u.addPends [u.result (u.cyc + 2) (.s 63) (u.g.here.pc + 8)]) 0x08 f (.goto a))) ∧
      (a % 4 ≠ 0 → exec (.callr f) s = .next (takeTrap s.land.takeIssue ⟨.misaligned, 0, 0⟩ (encJ 0x08 f) (litOf (.cj 0x08 f))))) ∧
   (∀ f s, s.letsJ 0x06 f → let u := s.readsJ 0x06 f; u.acts f.h = true → let a := (u.sreg u.cyc (f.d.toNat - 256)).toNat
      (a % 4 = 0 → exec (.jmp f) s = .next (s.pastJ u 0x06 f (.goto a))) ∧
      (a % 4 ≠ 0 → exec (.jmp f) s = .next (takeTrap s.land.takeIssue ⟨.misaligned, 0, 0⟩ (encJ 0x06 f) (litOf (.cj 0x06 f))))) ∧
   (∀ f s, s.letsJ 0x09 f → let u := s.readsJ 0x09 f; u.acts f.h = true → let a := (u.sreg u.cyc (f.d.toNat - 256)).toNat
      (a % 4 = 0 → exec (.ret f) s = .next (s.pastJ u 0x09 f (.goto a))) ∧
      (a % 4 ≠ 0 → exec (.ret f) s = .next (takeTrap s.land.takeIssue ⟨.misaligned, 0, 0⟩ (encJ 0x09 f) (litOf (.cj 0x09 f)))))) ∧
  ((∀ f s, s.letsQ f → let u := s.readsQ f; ∃ t, exec (.rpt f) s = .next t ∧
      t.g.here = { u.g.here with
        pc := u.g.here.pc + 8, next := u.cyc + 1 + f.h.stall.toNat, block := .none
        rep := { nrep := f.nrep.toNat + 1, rep := 0, mask := f.mask, strd := f.strd.toNat + 1 } } ∧
      keepsRegs u t ∧ t.g.pend = u.g.pend ∧ t.g.prom = u.g.prom ∧ sameAround u t) ∧
   (∀ f s, s.letsF 0x0D f → let u := s.readsF 0x0D f; u.acts f.h = true → ∃ t, exec (.yield f) s = .next t ∧
      t.g.lastIssue = u.cyc + 1 ∧ t.g.lastSlot = u.g.cur ∧ t.g.st = u.g.st ∧ t.g.here.pc = u.g.here.pc + 8 ∧
      t.g.here.next = u.cyc + 1 + f.h.stall.toNat ∧ keepsRegs u t ∧ t.g.pend = u.g.pend ∧ t.g.prom = u.g.prom ∧ sameAround u t))

/-- R96: the performing lanes of an `exit` leave the gang, and its slot with the last of them; in handler mode every lane does, with both
slots and the stack. -/
def Obligations.ExitLeaves : Prop :=
  (∀ f s, s.letsF 0x0C f → let u := s.readsF 0x0C f; (u.g.mode = false ∨ u.acts f.h = false) → ∃ t, exec (.exit f) s = .next t ∧
     (∀ k, k < u.g.lanes.length → (t.g.lane k).exited = ((u.g.lane k).exited || (u.performing f.h).contains k)) ∧
     (∀ k, t.g.here.mask.testBit k = (u.g.here.mask.testBit k && !((u.performing f.h).contains k))) ∧
     (t.g.here.mask = 0 → t.g.here.live = false) ∧
     (t.g.here.mask ≠ 0 → t.g.here.live = u.g.here.live ∧ t.g.here.pc = u.g.here.pc + 8 ∧
       t.g.here.next = u.cyc + 1 + f.h.stall.toNat) ∧
     t.g.s = u.g.s ∧ t.g.m = u.g.m ∧ t.g.k = u.g.k ∧ t.g.pend = u.g.pend ∧ t.g.stackd = u.g.stackd ∧ sameAround u t) ∧
  (∀ f s, s.letsF 0x0C f → let u := s.readsF 0x0C f; u.g.mode = true → u.acts f.h = true → ∃ t, exec (.exit f) s = .next t ∧
     t.g.s0.live = false ∧ t.g.s1.live = false ∧ t.g.stackd = 0 ∧ (∀ l ∈ t.g.lanes, l.exited = true) ∧ t.g.s = u.g.s ∧
     t.g.m = u.g.m ∧ t.g.k = u.g.k ∧ t.g.pend = u.g.pend ∧ sameAround u t)

/-- R98: `trap` and `brk` that act trap with SOFTWARE and BREAK; the operand detail is the low 32 bits of A, and 0. -/
def Obligations.SoftwareTraps : Prop :=
  ∀ f s,
    (s.letsF 0x0E f → (s.readsF 0x0E f).acts f.h = true → exec (.trap f) s =
      .next (takeTrap s.land.takeIssue ⟨.software, (s.readsF 0x0E f).sopnd .n32 f.lit (s.stepped f).a, 0⟩ (encFields 0x0E f) (litOf (.cf 0x0E f)))) ∧
    (s.letsF 0x10 f → (s.readsF 0x10 f).acts f.h = true → exec (.brk f) s =
      .next (takeTrap s.land.takeIssue ⟨.breakpoint, 0, 0⟩ (encFields 0x10 f) (litOf (.cf 0x10 f))))

/-- R99, R363, R365: a `tret` that acts returns from the trap at once where no register result of the gang is in flight; else it has issued, and
its slot waits until those in flight then have landed, whatever the other slot issues, and returns then. What the return leaves is `returned`:
normal mode, both slots with their lanes, PCs, joins, parked flags and repeats as the frame stands, the stack depth, the region state, and the
slot that trapped resumed by its form. A poisoned word among those that it reads raises POISON instead (log 31). -/
def Obligations.TrapReturns : Prop :=
  (∀ f s, s.letsF 0x0F f → s.g.s0.returns s.cyc = none → s.g.s1.returns s.cyc = none → let u := s.readsF 0x0F f; u.acts f.h = true →
    (u.g.pend ≠ [] → ∃ t, exec (.tret f) s = .next t ∧ t.g.here.block = .tret (s.stepped f).sub (u.g.lastDue u.cyc) ∧
      (∀ p ∈ u.g.pend, p.due ≤ u.g.lastDue u.cyc) ∧ t.g.here.pc = u.g.here.pc ∧ t.g.issues = u.g.issues + 1 ∧ keepsRegs u t ∧
      t.g.pend = u.g.pend ∧ t.g.prom = u.g.prom ∧ sameAround u t) ∧
    (u.g.pend = [] → u.returnPoison = false →
      ∃ t, exec (.tret f) s = .next t ∧ returned u t (s.stepped f).sub ∧ t.g.issues = u.g.issues + 1) ∧
    (u.g.pend = [] → u.returnPoison = true →
      exec (.tret f) s = .next (takeTrap s.land.takeIssue ⟨.poison, 0, 0⟩ (encFields 0x0F f) (litOf (.cf 0x0F f))))) ∧
  (∀ f s n form, n ≤ 1 → (s.g.slot n).returns s.cyc = some form → (n = 1 → s.g.s0.returns s.cyc = none) →
    let u := s.atSlot n
    (u.returnPoison = false → ∃ t, exec (.tret f) s = .next t ∧ returned u t form ∧ t.g.issues = s.g.issues) ∧
    (u.returnPoison = true → exec (.tret f) s = .next (trapBlocked u ⟨.poison, 0, 0⟩)))

/-- R101, R145: sysrd, syswr and kset that act. -/
def Obligations.SystemRegisters : Prop :=
  ∀ f s,
    (s.letsS 0x11 f → let u := s.readsS 0x11 f; u.acts f.h = true → exec (.sysrd f) s =
      .next (s.pastS (u.addPends [u.result (u.cyc + 2) (.s (f.d.toNat - 256)) (u.sysReg f.sreg.toNat)]) 0x11 f (.seq 1))) ∧
    (s.letsS 0x12 f → let u := s.readsS 0x12 f; u.acts f.h = true → exec (.syswr f) s =
      .next (s.pastS (u.addPends [u.result (u.cyc + 2) (.sys f.sreg.toNat)
        (u.opnd .n64 f.lit u.cyc 0 (.ofCode f.a.toNat))]) 0x12 f (.seq 1))) ∧
    (s.letsS 0xCC f → let u := s.readsS 0xCC f; u.acts f.h = true → exec (.kset f) s =
      .next (s.pastS (u.addPends [u.result (u.cyc + 2) (.k (f.d.toNat % 8))
        (u.opnd .n64 f.lit u.cyc 0 (.ofCode f.a.toNat))]) 0xCC f (.seq 1)))

/-! ## Words across lanes -/

/-- R113, R116, R138, R199, R200: scmp, wrlane and cvtef; cfd gives each performing lane the least one with its key and marks the leaders;
kadd adds the followers' values to each leader in lane order. -/
def Obligations.MixedResults : Prop :=
  (∀ f s, s.letsF 0x2E f → let u := s.readsF 0x2E f; let g := s.stepped f
     u.acts f.h = true → exec (.scmp f) s = .next (s.pastF (u.addPends ((u.performing f.h).map fun k =>
       u.result (u.cyc + 2) (.p k (g.d.toNat - 320)) (if combine g.comb (compareElem g.ty g.cmp (u.sa g) (u.sb g))
         (u.opnd .b32 .none u.cyc k (.ofCode g.c.toNat) != 0) then 1 else 0))) 0x2E f (.seq 1))) ∧
  (∀ f s, s.letsF 0x39 f → let u := s.readsF 0x39 f; let g := s.stepped f
     u.acts f.h = true → exec (.wrlane f) s =
       .next (s.pastF (u.addPends (u.resultsBy (fun _ => u.cyc) (fun k => k = u.lane16 g && u.guard f.h k) g.d g.ty.regs 4
         fun _ => u.sa g)) 0x39 f (.seq 1))) ∧
  (∀ f s, s.letsF 0x85 f → let u := s.readsF 0x85 f; let g := s.stepped f
     exec (.cvtef f) s = .next (s.pastF ((u.draw f.h g.rnd 1).addPends (u.laneResults f.h g.d 1 6 (fun k =>
       cvtVal g.ty .f32 g.rnd (g.sub % 2 = 1) (bits g.sub 1 2) (u.oldD g k) (u.lopnd .f32 g.lit k g.a) (rho g.rnd (u.zOf k)))
       ++ u.residuals g)) 0x85 f (.seq u.g.passes))) ∧
  (∀ f s, s.letsF 0xAE f → let u := s.readsF 0xAE f; let g := s.stepped f
     exec (.cfd f) s = .next (s.pastF (u.addPends (u.resultsBy (fun _ => u.cyc) (u.guard f.h) g.d 1 (u.g.passes - 1 + 20) (leader u g) ++
       (u.performing f.h).map fun k => u.result (u.cyc + (u.g.passes - 1 + 20)) (.p k (g.c.toNat - 320))
         (if leader u g k = k then 1 else 0))) 0xAE f (.seq u.g.passes))) ∧
  (∀ f s, s.letsF 0xAF f → let u := s.readsF 0xAF f; let g := s.stepped f
     exec (.kadd f) s = .next (s.pastF ((if g.ty = .f32 ∧ g.rnd = 4 then u.drawLanes (((u.performing f.h).filter fun k => follows u g k = k).flatMap
       fun k => (behind u g k).map fun _ => k) else u).addPends (u.resultsBy (fun _ => u.cyc) (fun k => u.guard f.h k && follows u g k = k) g.d 1
       (u.g.passes - 1 + 24) (gathered u g))) 0xAF f (.seq u.g.passes)))

/-- R196: `elect` writes 1 to pD in the least performing lane and 0 in the other performing lanes, two cycles on; its D is a p code other than
p0, and its other fields are zero. -/
def Obligations.ElectMarksTheLeast : Prop :=
  (∀ f, Instr.wellFormed (.elect f) = true → 320 < f.d.toNat ∧ f.d.toNat < 336 ∧ f.a = 0 ∧ f.b = 0 ∧ f.c = 0 ∧ f.minor = 0) ∧
  ∀ f s, s.letsF 0x14 f → let u := s.readsF 0x14 f; ∃ t, exec (.elect f) s = .next t ∧ keepsRegs u t ∧ sameAround u t ∧
    (u.performing f.h = [] → t.g.pend = u.g.pend) ∧
    (∀ n ks, u.performing f.h = n :: ks → (∀ k ∈ ks, n ≤ k) ∧ t.g.pend = (u.g.addPends
      (u.result (u.cyc + 2) (.p n ((s.stepped f).d.toNat - 320)) 1 ::
        ks.map fun k => u.result (u.cyc + 2) (.p k ((s.stepped f).d.toNat - 320)) (if k = n then 1 else 0))).pend)

/-- R191 to R193: mvn and bperm, whose lanes all read at the issue cycle; `bset` that acts with a permutation in its table loads it 600
cycles on, and the core's Benes control is taken until then; one whose table it cannot read, or whose table repeats a lane, traps and has no effect. -/
def Obligations.LaneMoves : Prop :=
  (∀ f s, s.letsF 0xA0 f State.mvnAlso → let u := s.readsF 0xA0 f State.mvnAlso; let g := s.stepped f
     exec (.mvn f) s = .next (s.pastF (u.addPends (u.resultsBy (fun _ => u.cyc) (u.guard f.h) g.d g.ty.regs
       (u.g.passes - 1 + 4 + mvnHops (if g.sub % 2 = 1 then u.g.gy else u.g.gx) (g.sub / 2 = 3) (u.mvnDist g)) (moved u g)))
       0xA0 f (.seq u.g.passes) State.mvnAlso)) ∧
  (∀ f s, s.letsF 0xAD f bpermAlso → let u := s.readsF 0xAD f bpermAlso; let g := s.stepped f
     exec (.bperm f) s = .next (s.pastF (u.addPends (u.resultsBy (fun _ => u.cyc) (u.guard f.h) g.d g.ty.regs (u.g.passes - 1 + 12) fun k =>
       match u.g.virtAt ((u.bcPerm (g.c.toNat % 4)).getD (u.g.phys k) 0) (u.g.pass k) with
       | some j => u.opndNow g.ty g.lit j g.a
       | none => 0)) 0xAD f (.seq u.g.passes) bpermAlso)) ∧
  (∀ f s, s.letsF 0xAC f → let u := s.readsF 0xAC f; let g := s.stepped f
     u.acts f.h = true → u.unheld →
     let accs := (List.range 16).map fun i => u.linAcc 0 ((u.sreg u.cyc (g.a.toNat - 256)).toNat + 16 * i) 16
     let v := u.settle (accs.map (Acc.span u.coh 16))
     let tab := accs.flatMap fun x => v.slotRead (x.span u.coh 16)
     (u.checkAccs accs 16 .read false = .ok () → (tab.map (·.toNat)).Nodup →
       exec (.bset f) s = .next (s.pastF (v.addPends [v.result (v.cyc + 600) (.bc (4 * v.g.core + g.d.toNat % 4)) (leNat tab)])
         0xAC f (.seq 1))) ∧
     (u.checkAccs accs 16 .read false = .ok () → ¬(tab.map (·.toNat)).Nodup →
       ∃ j x, tab[j]? = some x ∧ x ∈ tab.take j ∧ (tab.take j).Nodup ∧ exec (.bset f) s = traps s 0xAC f ⟨.descInvalid, j, 0⟩) ∧
     (∀ e, u.checkAccs accs 16 .read false = .error e → exec (.bset f) s = traps s 0xAC f
       (if e.cause = .misaligned ∨ e.cause = .scratchBounds then { e with detail := 1 } else e)))

/-- R26, R91, R164, R165, R197: `brv` with lanes on one side only, and with lanes on both: those that take it go on in the slot, the others
go into the free slot, or on the stack, or it raises DIVSTACK_FULL. -/
def Obligations.BrvSplits : Prop :=
  ∀ f s, s.letsJ 0x05 f → let u := s.readsJ 0x05 f; let x := u.g.here
    let takes := u.g.active.filter fun k => u.guard f.h k && ((u.opnd .b32 .none u.cyc k (.ofCode f.d.toNat) != 0) != (f.sub = 1))
    let rest := u.g.active.filter fun k => !(takes.contains k)
    (rest = [] → exec (.brv f) s = .next (s.pastJ u 0x05 f (.goto (away x.pc f.off)))) ∧
    (rest ≠ [] → takes = [] → exec (.brv f) s = .next (s.pastJ u 0x05 f (.seq 1))) ∧
    (rest ≠ [] → takes ≠ [] → (u.g.slot (1 - u.g.cur)).live = false → u.g.cur ≤ 1 → ∃ t, exec (.brv f) s = .next t ∧
      t.g.here.mask = maskOf takes ∧ t.g.here.pc = away x.pc f.off ∧ t.g.here.live = x.live ∧
      (t.g.slot (1 - u.g.cur)).mask = maskOf rest ∧ (t.g.slot (1 - u.g.cur)).live = true ∧
      (t.g.slot (1 - u.g.cur)).pc = x.pc + (if f.join.isSome then 12 else 8) ∧ (t.g.slot (1 - u.g.cur)).acq = { ops := [], nums := [] } ∧ t.g.here.acq = x.acq ∧
      t.g.here.join = (f.join.map fun j => away x.pc j) ∧ (t.g.slot (1 - u.g.cur)).join = (f.join.map fun j => away x.pc j) ∧
      t.g.here.next = u.cyc + max (1 + f.h.stall.toNat) 3 ∧ (t.g.slot (1 - u.g.cur)).next = u.cyc + max (1 + f.h.stall.toNat) 3 ∧
      t.g.pend = u.g.pend ∧ keepsRegs u t ∧ sameAround u t) ∧
    (rest ≠ [] → takes ≠ [] → (u.g.slot (1 - u.g.cur)).live = true → u.g.stackd < u.g.kn.divd → ∃ t,
      exec (.brv f) s = .next t ∧ t.g.stackd = u.g.stackd + 1 ∧ t.g.here.mask = maskOf takes ∧
      t.g.here.pc = away x.pc f.off ∧ t.g.here.join = (f.join.map fun j => away x.pc j) ∧
      t.g.here.next = u.cyc + max (1 + f.h.stall.toNat) 8 ∧ t.g.lanes = u.g.lanes ∧
      t.g.s = u.g.s ∧ t.g.pend = u.g.pend ∧ t.mem = u.mem ∧
      t.spad = (u.writeEntry u.g.stackd (x.pc + if f.join.isSome then 12 else 8) (f.join.map fun j => away x.pc j)
        rest).spad) ∧
    (rest ≠ [] → takes ≠ [] → (u.g.slot (1 - u.g.cur)).live = true → u.g.kn.divd ≤ u.g.stackd →
      exec (.brv f) s = .next (takeTrap s.land.takeIssue ⟨.divstackFull, 0, 0⟩ (encJ 0x05 f) (litOf (.cj 0x05 f))))

/-! ## Planes -/

/-- R172 to R190, R201: a plane word that acts, with its descriptors, shapes and accesses in order, writes its destination in the
performing lanes at t + its latency, and takes the plane unit for as long as R174 says; one whose descriptors, shapes or accesses are not in
order traps, and has no effect. -/
def Obligations.PlaneResults : Prop :=
  ∀ x ∈ planeCases, ∀ f s, s.letsF x.op f x.also → let u := s.readsF x.op f x.also; let g := s.stepped f
    u.acts f.h = true → u.unheld →
    (x.ready u g → let v := u.planeSettle (x.srcs u g)
      exec (x.word f) s = .next (s.pastF (x.after u g
        (v.planeWrite (u.descD g) (v.performing f.h) (v.cyc + x.lat u g) (x.val u v.asSeen g))) x.op f (.seq 1) x.also)) ∧
    (∀ e, checkDescs u.g (u.descD g).depth (x.all u g) = .error e → exec (x.word f) s = traps s x.op f e) ∧
    (checkDescs u.g (u.descD g).depth (x.all u g) = .ok () → x.folds u g = false →
      ∃ i ≤ 2, exec (x.word f) s = traps s x.op f ⟨.foldMismatch, i, 0⟩) ∧
    (checkDescs u.g (u.descD g).depth (x.all u g) = .ok () → x.folds u g = true →
      ∀ e, u.planeAccess f.h (u.descD g) (x.srcs u g) = .error e → exec (x.word f) s = traps s x.op f e)

/-! ## Scratchpad words -/

/-- R27, R114, R260: sld and sst that act; one whose access fails its check traps, and has no effect. -/
def Obligations.UniformAccesses : Prop :=
  (∀ f s, s.letsF 0x36 f → let u := s.readsF 0x36 f; let g := s.stepped f; let p := (uniAcc u g).span u.coh (accBytes g.ty)
     u.acts f.h = true → u.unheld →
     (u.checkAccs [uniAcc u g] (accBytes g.ty) .read false = .ok () → let v := u.settle [p]
       exec (.sld f) s = .next (s.pastF (v.addPends
         (v.result (v.cyc + v.latency (.cf 0x36 g)) (.s (g.d.toNat - 256)) (extScalar g.ty (leNat (v.slotRead p))) :: v.postInc 0 g))
         0x36 f (.seq 1))) ∧
     (∀ e, u.checkAccs [uniAcc u g] (accBytes g.ty) .read false = .error e → exec (.sld f) s = traps s 0x36 f e)) ∧
  (∀ f s, s.letsF 0x37 f → let u := s.readsF 0x37 f; let g := s.stepped f; let x := uniAcc u g
     u.acts f.h = true → u.unheld →
     (u.checkAccs [x] (accBytes g.ty) .write false = .ok () →
       exec (.sst f) s = .next (s.pastF ((u.addFxs [u.store (u.cyc + u.latency (.cf 0x37 g)) x.core (x.addr u.coh)
         (leBytes (accBytes g.ty) (u.sreg u.cyc (g.d.toNat - 256)).toNat)]).addPends (u.postInc 0 g)) 0x37 f (.seq 1))) ∧
     (∀ e, u.checkAccs [x] (accBytes g.ty) .write false = .error e → exec (.sst f) s = traps s 0x37 f e))

/-- R27, R28, R141, R142, R151, R227: a lane load gives each performing lane the bytes at its address as the slot sees them. Pass 0 reads at issue; the
read of a later pass is made as that pass issues (a result read before it has it made then: log 44), and gives its results what the scratchpad then
holds. A load of which one access fails its check traps, and has no effect in any lane. -/
def Obligations.LaneLoads : Prop :=
  (∀ x ∈ laneLoads, ∀ f s, s.letsF x.1 f → let u := s.readsF x.1 f; let g := s.stepped f; let acc := x.2.2 u g
    let n := accBytes g.ty; let accs := (u.lperforming f.h).map acc
    u.unheld →
    (u.checkAccs accs n .read true = .ok () → let v := u.settle (accs.map (Acc.span u.coh n)); let lat := v.latency (.cf x.1 g)
      let rs := (v.laneResults f.h g.d g.ty.regs lat fun k => loadExt g.ty (leNat (v.slotRead ((acc k).span u.coh n)))).map fun p =>
        if v.cyc + lat < p.due && p.keep.isNone then { p with rmw := v.draws + 1 } else p
      let y := v.addPends (rs ++ v.postInc gangLane g)
      exec (x.2.1 f) s = .next (s.pastF { y with g := { y.g with
        loads := y.g.loads ++ (accs.filter fun a => v.g.pass a.k != 0).map (v.laterLoad g n) } } x.1 f (.seq v.g.passes))) ∧
    (∀ e, u.checkAccs accs n .read true = .error e → exec (x.2.1 f) s = traps s x.1 f e)) ∧
  (∀ (s : State) l k r p, l.num ≠ 0 → l.tgt = .v k r → (∀ y ∈ s.g.fx, y.slot ≠ l.slot ∨ y.core ≠ l.core) →
    p ∈ s.g.pend → p.rmw = l.num → p.tgt = .v k r →
    { p with val := loadExt l.ty (leNat ((s.pad l.core).readN l.addr l.len)) % 2 ^ 32 } ∈ (s.load l).g.pend ∧ (s.load l).mem = s.mem ∧
      (s.load l).spad = s.spad)

/-- R27, R141, R142, R222, R227: a lane store sends the low bytes of D of performing lanes to their addresses. Where several lanes store to the
same bytes exactly one of them is among those that send; which one is free. A store of which one
access fails its check traps, and stores nothing. -/
def Obligations.LaneStores : Prop :=
  ∀ x ∈ laneStores, ∀ f s, s.letsF x.1 f → let u := s.readsF x.1 f; let g := s.stepped f; let acc := x.2.2 u g
    u.unheld →
    (∀ e, u.checkAccs ((u.lperforming f.h).map acc) (accBytes g.ty) .write true = .error e → exec (x.2.1 f) s = traps s x.1 f e) ∧
    (u.checkAccs ((u.lperforming f.h).map acc) (accBytes g.ty) .write true = .ok () → ∃ ws : List Nat, ws.Sublist (u.lperforming f.h) ∧
      (∀ k ∈ u.lperforming f.h, ∃ w ∈ ws, ((acc w).core, (acc w).addr u.coh) = ((acc k).core, (acc k).addr u.coh) ∧
        ∀ w' ∈ ws, ((acc w').core, (acc w').addr u.coh) = ((acc k).core, (acc k).addr u.coh) → w' = w) ∧
      exec (x.2.1 f) s = .next (s.pastF ((u.addFxs (ws.map fun k =>
        u.store (u.laneCyc k + u.latency (.cf x.1 g)) (acc k).core ((acc k).addr u.coh) (u.storeVal g k))).addPends (u.postInc gangLane g))
        x.1 f (.seq u.g.passes)))

/-- R27, R230, R231: `atoms` sends one RMW for each performing lane, in lane order, and D of each takes what its RMW reads; one of which an access
fails its check traps, and sends none. One with a `.rel` part that an earlier access of its slot would outlast is held (log 32). -/
def Obligations.ScratchAtomics : Prop :=
  ∀ f s, s.letsF 0xC4 f → let u := s.readsF 0xC4 f; let g := s.stepped f; let ks := u.lperforming f.h
    let held := (g.ord = 2 ∨ g.ord = 3 ∨ g.ord = 4) ∧ u.relHeld (u.latency (.cf 0xC4 g)) = true
    u.unheld →
    (held → exec (.atoms f) s = .next (s.pastF u 0xC4 f (.later (u.cyc + 1)))) ∧
    (¬held → u.checkAccs (ks.map (atomAcc u g)) (aopBytes g.osub) .rmw true = .ok () →
      exec (.atoms f) s = .next (s.pastF (atomsLeft u g ((u.addFxs (ks.map (atomSent u g))).addPends
        ((u.laneResults f.h g.d (aopBytes g.osub / 4) (u.latency (.cf 0xC4 g)) fun _ => 0).map (atomResult u)))) 0xC4 f (.seq u.g.passes))) ∧
    (¬held → ∀ e, u.checkAccs (ks.map (atomAcc u g)) (aopBytes g.osub) .rmw true = .error e → exec (.atoms f) s = traps s 0xC4 f e)

/-- R234 to R238: bini, barv, bexp and bdrop that act send their RMW to the object, with what its order kind asks, and trap where the object is
one that R237 turns away, or where their access fails its check; what each RMW leaves of the object; `btest` reads the control word and the
remaining arrivals. R364 says of DETAIL no more than `field`: that BARRIER_INVALID names operand 3 for `bini` and 1 for the others, and POISON 0,
is the model's reading (log 30). -/
def Obligations.BarrierWords : Prop :=
  (∀ x ∈ barrierCases, ∀ f s, s.letsF x.op f → let u := s.readsF x.op f; let g := s.stepped f
     u.acts f.h = true → u.unheld →
     (∀ e, u.checkAccs [u.barAcc g] 16 x.kind true = .error e →
       exec (x.word f) s = traps s x.op f (if e.cause = .poison then { e with detail := 0 } else e)) ∧
     (u.checkAccs [u.barAcc g] 16 x.kind true = .ok () →
     (x.refuses u g (u.barObj (u.barAcc g)) = false → exec (x.word f) s =
       .next (s.pastF (acquires u ((u.addFxs [x.sent u g]).addPends (x.result u g)) g) x.op f (.seq 1))) ∧
     (x.refuses u g (u.barObj (u.barAcc g)) = true → exec (x.word f) s =
       traps s x.op f ⟨.barrierInvalid, x.field, 0⟩))) ∧
  (∀ (x : Fx) (e r p gen ph dp rest : Nat), e < 2 ^ 32 → r < 2 ^ 32 → p < 2 ^ 32 → gen < 2 ^ 16 → ph ≤ 1 → dp ≤ 1 → rest < 2 ^ 14 →
     let old := leBytes 4 e ++ leBytes 4 r ++ leBytes 4 p ++ leBytes 4 (gen * 2 ^ 16 + 4 * rest + 2 * dp + ph)
     (∀ c : W32, x.op = .bini c → (x.result old).1 = leBytes 4 c.toNat ++ leBytes 4 c.toNat ++ leBytes 4 0 ++ leBytes 4 0) ∧
     (∀ a d, x.op = .barv a d → (x.result old).1 = phased e (r - 1) p gen ph dp ∧
       (x.result old).2 = d.map fun n => (.s n, 0x80 * 2 ^ 56 + gen * 2 ^ 32 + a % 2 ^ 22)) ∧
     (∀ a d, x.op = .bdrop a d → (x.result old).1 = phased (e - 1) (r - 1) p gen ph 1 ∧
       (x.result old).2 = d.map fun n => (.s n, 0x80 * 2 ^ 56 + gen * 2 ^ 32 + a % 2 ^ 22)) ∧
     (∀ c : W32, x.op = .bexp c → (x.result old).1 = phased e r ((p + c.toNat) % 2 ^ 32) gen ph dp)) ∧
  (∀ f s, s.letsF 0xCA f → let u := s.readsF 0xCA f; let g := s.stepped f; let p := (u.barAcc g).span u.coh 16
     u.acts f.h = true → u.unheld → u.checkAccs [u.barAcc g] 16 .rmw true = .ok () →
     (u.barObj (u.barAcc g)).remaining ≤ (u.barObj (u.barAcc g)).expected → let v := u.settle [p]
     exec (.btest f) s = .next (s.pastF (v.addPends [v.result (v.cyc + v.latency (.cf 0xCA g)) (.s (g.d.toNat - 256))
       (leNat (((v.slotRead p).drop 12).take 4) + leNat (((v.slotRead p).drop 4).take 4) * 2 ^ 32)]) 0xCA f (.seq 1)))

/-- R233, R240: `fnc` and `wait` that act block their slot with what they wait for. -/
def Obligations.FenceAndWaitBlock : Prop :=
  (∀ f s, s.letsF 0xC5 f → let u := s.readsF 0xC5 f; let g := s.stepped f
     u.acts f.h = true → exec (.fnc f) s =
       .next (s.pastF u 0xC5 f (.blocked (.fence (g.ord != 1) u.cyc (u.now + u.g.kn.hang))))) ∧
  (∀ f s, s.letsF 0xCB f → let u := s.readsF 0xCB f; let g := s.stepped f; let n := u.sopnd .n64 g.lit g.c
     u.acts f.h = true → u.waitCheck (u.waitWords g) = .ok () → exec (.wait f) s =
       .next (s.pastF u 0xCB f (.blocked (.wait (g.d.toNat - 256) (u.waitWords g) (g.osub % 2 = 1)
         (if n ≠ 0 ∧ n ≤ u.g.kn.hang then some (u.now + n) else none) (u.now + u.g.kn.hang) u.nextOp))))

/-! ## Channel words -/

/-- R297 to R300: chsend, chrecv and chrel that act block with what they wait for; chpoll reads the counts of its channel. -/
def Obligations.ChannelWords : Prop :=
  (∀ f s, s.letsF 0xD8 f → let u := s.readsF 0xD8 f; let g := s.stepped f; let ch := u.chanArg g
     let src := (u.sreg u.cyc (g.b.toNat - 256)).toNat; let n := u.sopnd .n64 g.lit g.c
     ∀ x, u.g.kn.chans[ch]? = some x → u.acts f.h = true → u.unheld → u.f3 = x.prod → n ≤ x.size → src % 16 = 0 → n % 16 = 0 →
     src < 2 ^ 22 → u.coh.linInside src n = true →
     exec (.chsend f) s = .next (s.pastF u 0xD8 f (.blocked (.chsend g ch src n (u.now + u.g.kn.hang) u.g.issues)))) ∧
  (∀ f s, s.letsF 0xD9 f → let u := s.readsF 0xD9 f; let g := s.stepped f; let ch := u.chanArg g
     ∀ x, u.g.kn.chans[ch]? = some x → u.acts f.h = true → u.f3 = x.cons →
     exec (.chrecv f) s = .next (s.pastF u 0xD9 f (.blocked (.chrecv (g.d.toNat - 256) ch (u.now + u.g.kn.hang) u.draws)))) ∧
  (∀ f s, s.letsF 0xDA f → let u := s.readsF 0xDA f; let g := s.stepped f; let ch := u.chanArg g
     ∀ x, u.g.kn.chans[ch]? = some x → u.acts f.h = true → u.f3 = x.cons →
     (∃ y d c, u.channel ch = some (y, d, c) ∧ c.rel ≠ c.recv) →
     exec (.chrel f) s = .next (s.pastF u 0xDA f (.blocked (.chrel (g.d.toNat - 256) ch (u.now + u.g.kn.hang))))) ∧
  (∀ f s, s.letsF 0xDB f → let u := s.readsF 0xDB f; let g := s.stepped f; let ch := u.chanArg g
     ∀ x, u.g.kn.chans[ch]? = some x → u.acts f.h = true → (u.f3 = x.prod ∨ u.f3 = x.cons) →
     exec (.chpoll f) s = .next (s.pastF (u.addPends [u.result (u.cyc + 4) (.s (g.d.toNat - 256)) (u.pollWord ch x)]) 0xDB f (.seq 1)))

/-! ## Engine words -/

/-- R243 to R251: gld, gst and gatom that act issue one item for each performing lane, with the operand bytes that the slot sees where they
have any; `watch` issues one, whose landing is locked. A `.rel` part waits for the slot's single accesses that are not performed. One for which
there is no tag, no place in its engine or no room for its locks has not issued: it is held at issue, and leaves no operation. So is a word that
accesses memory behind an earlier `.acq` part of its slot: while an RMW of it is not applied it tries again each cycle, and while a single access
of it is in flight the single access engine holds it. -/
def Obligations.SingleAccesses : Prop :=
  (∀ x ∈ singleCases, ∀ f s, s.letsF x.op f → let u := s.readsF x.op f; let g := s.stepped f
     let ks := u.performing f.h; let off := u.sideOff g
     u.acts f.h = true → u.unheld → u.sideCheck ks off (x.size g) (x.len g) = .ok () → (∀ k ∈ ks, u.globalAddr g k % x.size g = 0) →
     let v := if x.src then u.settle (u.sideSpans ks off (x.len g)) else u
     let locks := v.sideLock ks off (x.len g) (x.dst g)
     (¬v.takes 3 locks → exec (x.word f) s = .next (s.pastF v x.op f (.held 3 (.room (locks.map (·.core)))))) ∧
     (v.takes 3 locks →
     ∃ t o, exec (x.word f) s = .next t ∧ issued v t 3 locks g.d o ∧ o.word = encFields x.op g ∧
       o.items.map (fun i => (i.k, i.off, i.addr)) = ks.map (fun k => (k, off k, v.globalAddr g k)) ∧
       (x.src = true → o.items.map (·.data) = ks.map fun k => v.sideData k (off k) (x.len g)) ∧
       let ord := v.singleOrd g (ks.map (v.globalAddr g))
       (o.rel = true ↔ ord = 2 ∨ ord = 3 ∨ ord = 4) ∧ (o.rel = true → o.deps = v.slotOps v.g.tag false))) ∧
  (∀ f s, s.letsF 0xD3 f → let u := s.readsF 0xD3 f; let g := s.stepped f
     let land := (u.sreg u.cyc (g.c.toNat - 256)).toNat; let a := (u.sreg u.cyc (g.a.toNat - 256)).toNat; let x := u.linAcc 0 land 8
     u.acts f.h = true → u.unheld → x.mis = false → x.out = false → u.coh.inside x.off 8 = true → a % 8 = 0 →
     (¬u.takes 3 (u.padLock true land 8) →
       exec (.watch f) s = .next (s.pastF u 0xD3 f (.held 3 (.room ((u.padLock true land 8).map (·.core)))))) ∧
     (u.takes 3 (u.padLock true land 8) → ∃ t o, exec (.watch f) s = .next t ∧ issued u t 3 (u.padLock true land 8) g.d o ∧ o.word = encFields 0xD3 g ∧
       o.items.map (·.addr) = [a] ∧ o.cval = BitVec.ofNat 64 land ∧ o.bval = BitVec.ofNat 64 (u.sopnd .b64 g.lit g.b))) ∧
  (∀ i op f s, Instr.view i = some (.cf op f) → op ∈ accessOps → s.letsF op f → let u := s.readsF op f
     (laneOp op = true ∨ u.acts f.h = true) →
     (u.acqLeft.nums ≠ [] → exec i s = .next (s.pastF u op f (.later (u.cyc + 1)))) ∧
     (u.acqLeft.nums = [] → u.acqLeft.ops ≠ [] → exec i s = .next (s.pastF u op f (.held 3 .acq))))

/-- R286, R294 to R296: gth, sct and probe that act issue one item for each performing lane; an index past the end fails its item. -/
def Obligations.IndexWords : Prop :=
  ∀ x ∈ indexCases, ∀ f s, s.letsF x.1 f → let u := s.readsF x.1 f; let g := s.stepped f
    let ca := (u.sreg u.cyc (g.c.toNat - 256)).toNat; let w := u.settleRec ca; let ks := w.performing f.h
    u.acts f.h = true → u.unheld → ∀ bs, w.readRecord ca 3 = .ok bs → w.recPoison ca = false → let r := Tens.ofBytes bs
    r.valid = true → r.fmt ≤ 14 → (x.1 = 0xD6 → g.esub / 2 ≠ 0 → ropWidth (g.esub / 2) = r.eb) →
    bits (w.auxWord g).toNat 54 9 = 0 → w.auxCheck (w.auxWord g) = .ok () →
    (x.1 ≠ 0xD7 → w.sideCheck ks (w.sideOff g) r.eb r.eb = .ok ()) →
    let v := if x.1 = 0xD6 then w.settle (w.sideSpans ks (w.sideOff g) r.eb) else w
    v.takes 2 (indexLocks x.1 w v g r.eb) →
    ∃ t o, exec (x.2 f) s = .next t ∧ issued v t 2 (indexLocks x.1 w v g r.eb) g.d o ∧ o.word = encFields x.1 g ∧ o.rec1 = bs ∧
      o.aux = w.auxWord g ∧ o.items.map (fun i => (i.k, i.idx, i.off, i.addr)) = ks.map (fun k =>
        let j := v.vregs v.cyc k g.a.toNat 1; (k, j, indexOff x.1 w g k, r.elemAddr j)) ∧
      ∀ i ∈ o.items, (r.count ≤ i.idx → i.st = .failed codeBounds i.addr) ∧ (i.idx < r.count → i.st = .todo)

/-- R286 to R293, R302, R358, R359: a `cpy` that acts issues one operation that moves what its words plan; a `launch` with room in the device
launch queue puts one child in it for each performing lane, in lane order; `ecncl` cancels an operation of engines 1 to 3 in flight and
reports 1, and reports others as 0 or 2 and leaves them alone. -/
def Obligations.EngineWords : Prop :=
  (∀ f s, s.letsF 0xD4 f → let u := s.readsF 0xD4 f; let g := s.stepped f
     let aw := u.sreg u.cyc (g.a.toNat - 256); let bw := u.sreg u.cyc (g.b.toNat - 256)
     let v := if cpyForm g = 4 then u else (u.settleRec aw.toNat).settleRec bw.toNat
     u.acts f.h = true → u.unheld → ∀ p, cpyPlan u v g = .ok p → v.takes 1 (p.locks ++ v.auxLock (u.auxWord g)) →
     ∃ t o, exec (.cpy f) s = .next t ∧ issued v t 1 (p.locks ++ v.auxLock (u.auxWord g)) g.d o ∧ o.word = encFields 0xD4 g ∧
       o.rec1 = p.rec1 ∧ o.rec2 = p.rec2 ∧ o.bytes = p.bytes ∧ o.aval = aw ∧ o.bval = bw ∧ o.aux = u.auxWord g) ∧
  (∀ f s, s.letsF 0x13 f → let u := s.readsF 0x13 f; let g := s.stepped f; let ks := u.performing f.h
     u.acts f.h = true → (u.part u.myPart).childq.length + ks.length ≤ 4096 → u.takes 6 [] → u.myPart < u.parts.length →
     ∃ t o cs, exec (.launch f) s = .next t ∧ issued u t 6 [] g.d o ∧ o.items.map (·.addr) = ks.map (u.globalAddr g) ∧
       o.rel = true ∧ o.deps = u.slotOps u.g.tag false ∧
       (t.part u.myPart).childq = (u.part u.myPart).childq ++ cs ∧ cs.map (·.addr) = ks.map (u.globalAddr g) ∧
       cs.map (·.item) = List.range ks.length ∧ ∀ c ∈ cs, c.op = o.id ∧ c.cohort = u.g.cohort ∧ c.f2 = u.g.f2 ∧ c.pasid = u.myPasid) ∧
  (∀ f s, s.letsF 0xDD f → let u := s.readsF 0xDD f; let g := s.stepped f; let w := u.sreg u.cyc (g.a.toNat - 256)
     let e := u.g.entryOf w
     let out (t : State) (n : Nat) : Host.Outcome State Fault Refusal :=
       .next (s.pastF (t.addPends [u.result (u.cyc + 8) (.s (g.d.toNat - 256)) n]) 0xDD f (.seq 1))
     u.acts f.h = true →
     (¬(e.open_ = true ∧ e.matches_ w = true) → exec (.ecncl f) s = out u 0) ∧
     (∀ o, e.open_ = true → e.matches_ w = true → u.opOfTag e (bits w.toNat 48 8) = some o →
       exec (.ecncl f) s = if o.eng ≤ 3 then out (u.cancelOp o) 1 else out u 2))

/-! ## Matrix words -/

/-- R304, R306, R313 to R315, R317 to R336: a matrix word that acts in a cohort that holds its pair's matrix state, with its words, addresses
and locks in order, completes at issue when it has nothing to do, and otherwise enters the pair's queue; the B blocks that it names have the tags
that the `bput`s queued ahead will leave (log 38). `mop` completes at issue, and its mask register lands two cycles on. -/
def Obligations.MatrixWords : Prop :=
  (∀ x ∈ matrixCases, ∀ f s, s.letsF x.op f x.acting → let u := s.readsF x.op f x.acting; let g := s.stepped f
     u.acts f.h = true → u.unheld → u.myPair.holder = some u.g.cohort → x.asks u g → u.matAddrs (x.addrs u g) = .ok () →
     u.matBusy (x.spans u g) (x.blocks u g) (x.reads u g) = .ok () →
     (x.noop u g = true → u.tagFree → ∃ t, exec (x.word f) s = .next t ∧ doneAtIssue u t g.d) ∧
     (x.noop u g = false → let v := x.after u g; v.takes 5 (x.locks u g) → ∃ t o, exec (x.word f) s = .next t ∧
       issued v t 5 (x.locks u g) g.d o ∧ o.word = encFields x.op g ∧ o.dur = x.dur u g ∧ o.aval = x.aval u g ∧
       o.bval = x.bval u g ∧ (t.pair v.coh.pair).matq = (v.pair v.coh.pair).matq ++ [v.nextOp])) ∧
  (∀ f s, s.letsF 0xE9 f → let u := s.readsF 0xE9 f; let g := s.stepped f
     u.acts f.h = true → u.myPair.holder = some u.g.cohort → u.tagFree →
     let b := u.maskReg (g.b.toNat % 8); let c := u.maskReg (g.c.toNat % 8)
     ∃ t m, exec (.mop f) s = .next t ∧ doneAtIssue u t g.d ∧ u.result (u.cyc + 2) (.m (g.a.toNat % 8)) (BitVec.toNat m) ∈ t.g.pend ∧
       (g.sub = 0 → m = b &&& c) ∧ (g.sub = 1 → m = b ||| c) ∧ (g.sub = 2 → m = b ^^^ c) ∧ (g.sub = 3 → m = b &&& ~~~c) ∧
       (g.sub = 4 → m = ~~~b) ∧ (g.sub = 5 → ∀ i < 256, m.getLsbD i =
         (decide (u.sopnd .n64 g.lit g.b ≤ i) && decide (i < u.sopnd .n64 g.lit g.c))) ∧ (6 ≤ g.sub → m = b))


/-! ## Traps and the end of a gang -/

/-- The trap frame of R363: code, detail, word and literal, the slots with the one that trapped ready to issue, the region state as before
the instruction that traps (so with one in which the other slot is blocked), the stack depth, the condition word, the lanes whose guard is true, the slots' lanes and the time. -/
def trapFrame (u : State) (cause : Cause) (detail condw : Nat) (word lit : W64) : List Byte :=
  let g := u.g.setHere { u.g.here with next := u.cyc }
  leBytes 4 (cause.code + 2 ^ 8 * u.g.cur) ++ leBytes 4 detail ++ leBytes 8 word.toNat ++ leBytes 8 lit.toNat ++
  g.s0.record u.cyc ++ g.s1.record u.cyc ++ leBytes 4 u.g.regpc ++ leBytes 4 u.g.regcnt ++ leBytes 4 0xFFFFFFFF ++
  leBytes 4 u.g.stackd ++ leBytes 8 condw ++ leBytes 32 (maskOf ((u.trueLanes word).filter (· < 256))) ++
  leBytes 32 (u.g.s0.mask % 2 ^ 256) ++ leBytes 32 (u.g.s1.mask % 2 ^ 256) ++ leBytes 8 u.now ++ leBytes 72 0

/-- R362, R363: a trap in normal mode with a handler: the frame is written at TFRAME, and the handler starts in S0 with the slot's lanes, in
handler mode, no earlier than eight cycles on and once every register result in flight has landed. The region state stays as before the
instruction that traps. -/
def Obligations.TrapEnters : Prop :=
  ∀ cause detail condw s entry, let u := s.land
    u.g.mode = false → u.g.kn.handler = some entry → u.spadOk → u.coh.cb ≤ u.coh.pb + u.tframe / 4096 * 16 →
    ∃ t, exec (.trapEntry cause detail condw) s = .next t ∧
      t.g.mode = true ∧ t.g.tcause = cause.code ∧ t.g.cur = 0 ∧ t.g.s0.pc = entry ∧ t.g.s0.mask = u.g.here.mask ∧
      t.g.s0.live = true ∧ t.g.s0.join = none ∧ t.g.s0.rep.nrep = 0 ∧ t.g.s0.next = max (u.cyc + 8) (u.g.lastDue u.cyc) ∧
      t.g.s1.live = false ∧ (∀ p ∈ t.g.pend, p.due ≤ t.g.s0.next) ∧
      t.g.pend.map (fun p => (p.due, p.tgt)) = u.g.pend.map (fun p => (p.due, p.tgt)) ∧
      t.g.stackd = u.g.stackd ∧ t.g.regpc = u.g.regpc ∧ t.g.regcnt = u.g.regcnt ∧ t.g.s = u.g.s ∧ t.g.lanes = u.g.lanes ∧
      t.mem = u.mem ∧ t.others = u.others ∧ t.ownRead u.tframe 256 = trapFrame u cause detail condw u.wordHere.1 u.wordHere.2

/-- R42, R366: a trap in handler mode or without a handler is a cohort fault, which stops the cohort and keeps the first fault for its report. -/
def Obligations.CohortFaults : Prop :=
  (∀ cause detail condw s, (s.land.g.mode = true ∨ s.land.g.kn.handler = none) →
    exec (.trapEntry cause detail condw) s = exec (.cohortFault cause) s) ∧
  (∀ cause s, let u := s.land; u.coh ∈ u.cohorts → u.coh.id = u.g.cohort → ∃ t, exec (.cohortFault cause) s = .next t ∧
    t.coh.toFault = true ∧ (u.coh.st = .resident → t.coh.st = .stopped) ∧ (∀ x, u.coh.fault = some x → t.coh.fault = some x) ∧
    (u.coh.fault = none → ∃ x, t.coh.fault = some x ∧ x.cause = cause.code ∧ x.gang = u.g.f2 ∧ x.pc = u.g.here.pc) ∧
    t.g.mode = u.g.mode ∧ t.g.s = u.g.s ∧ t.g.lanes = u.g.lanes ∧ t.mem = u.mem ∧ t.spad = u.spad)

/-! ## PC slots -/

/-- R167 to R170, R205: parking, going on, exchanging with the stack, merging and popping. The model's choices: in handler mode only the entries
that the handler pushed count (log 28); when an exchanged slot issues, and that what lanes have in flight and wait for goes with them to the stack
and back (log 44); a poisoned word of an entry that a slot takes ends the cohort (log 31). -/
def Obligations.SlotSteps : Prop :=
  ∀ s, let u := s.land; let g := u.g
    (∀ n, g.parks n u.cyc = true → exec (.slotPark n) s =
      .next { u with g := g.setSlot n { g.slot n with parked := true, parkCyc := u.cyc + 1 } }) ∧
    (∀ n, (g.slot n).parked = true → (g.slot (1 - n)).live = false → g.ownStack = 0 → exec (.slotPark n) s =
      .next { u with g := g.setSlot n { g.slot n with parked := false, join := none } }) ∧
    (g.s0.parked = true → g.s1.parked = true → g.s0.pc ≠ g.s1.pc → g.ownStack = 0 → exec .slotExchange s =
      .next { u with g := { g with s0 := { g.s0 with parked := false, join := none }, s1 := { g.s1 with parked := false, join := none } } }) ∧
    (g.s0.parked = true → g.s1.parked = true → g.s0.pc ≠ g.s1.pc → 0 < g.ownStack →
      let n := if g.s0.parkCyc > g.s1.parkCyc then 0 else 1; let e := g.stackd - 1
      (u.entryPoison e true = true → exec .slotExchange s = u.stackFault n) ∧
      (u.entryPoison e true = false → ∃ t, exec .slotExchange s = .next t ∧ t.g.stackd = g.stackd ∧ t.g.slot (1 - n) = g.slot (1 - n) ∧
        t.g.entryThread e = { tid := (g.slot n).tid, acq := (g.slot n).acq } ∧ (∀ d, d < e → t.g.stk[d]? = some (g.entryThread d)) ∧
        t.spad = (u.writeEntry e (g.slot n).pc none (g.lanesOf (g.slot n).mask)).spad ∧
        (u.entryMembers e ≠ [] → (t.g.slot n).mask = maskOf (u.entryMembers e) ∧ (t.g.slot n).pc = (u.entryPc e).1 ∧
          (t.g.slot n).join = (u.entryPc e).2 ∧ (t.g.slot n).live = true ∧ (t.g.slot n).next = u.cyc ∧
          (t.g.slot n).tid = (g.entryThread e).tid ∧ (t.g.slot n).acq = (g.entryThread e).acq) ∧
        (u.entryMembers e = [] → t.g.slot n = .freed u.cyc))) ∧
    (g.merges = true → ∃ t, exec .slotMerge s = .next t ∧ t.g.s0.mask = g.s0.mask ||| g.s1.mask ∧ t.g.s0.pc = g.s0.pc ∧
      t.g.s0.join = none ∧ t.g.s0.live = true ∧ t.g.s0.parked = false ∧ t.g.s0.next = max g.s0.next g.s1.next ∧ t.g.s1 = .freed u.cyc ∧
      (∀ x, x ∈ t.g.s0.acq.ops ↔ x ∈ g.s0.acq.ops ∨ x ∈ g.s1.acq.ops) ∧ (∀ x, x ∈ t.g.s0.acq.nums ↔ x ∈ g.s0.acq.nums ∨ x ∈ g.s1.acq.nums) ∧
      t.g.s0.tid = g.s0.tid ∧ (g.s1.tid ≠ g.s0.tid → ∀ x ∈ t.g.fx, x.slot ≠ g.s1.tid) ∧ t.mem = u.mem ∧ t.spad = u.spad ∧ t.g.lanes = u.g.lanes ∧
      t.g.s = u.g.s) ∧
    (∀ n, (g.slot n).live = false → 0 < g.ownStack → g.st ≠ .exited → let e := g.stackd - 1
      (u.entryPoison e true = true → exec (.stackPop n) s = u.stackFault n) ∧
      (u.entryPoison e true = false → ∃ t, exec (.stackPop n) s = .next t ∧ t.g.stackd = e ∧ t.g.stk = g.stk.take e ∧ (u.entryMembers e = [] → t.g.slot n = g.slot n) ∧
        (u.entryMembers e ≠ [] → (t.g.slot n).mask = maskOf (u.entryMembers e) ∧ (t.g.slot n).pc = (u.entryPc e).1 ∧
          (t.g.slot n).join = (u.entryPc e).2 ∧ (t.g.slot n).live = true ∧ (t.g.slot n).next = (g.slot n).next + 8 ∧
          (t.g.slot n).tid = (g.entryThread e).tid ∧ (t.g.slot n).acq = (g.entryThread e).acq)))

/-! ## Blocked slots -/

/-- R233, R240 to R242, R247, R248: how a fence, a wait and a held instruction end, by what they waited for or by a trap. -/
def Obligations.BlocksEnd : Prop :=
  ∀ n s, let u := s.atSlot n
    (∀ all since d, u.g.here.block = .fence all since d → u.fenceClear all = true →
      exec (.fenceRelease n) s = .next (completeBlocked u (max u.cyc (since + 2)))) ∧
    (∀ d conds all lim dl mark, u.g.here.block = .wait d conds all lim dl mark →
      let v := u.waitView conds
      (∀ sat, u.waitNow conds all lim dl mark = .go sat → u.g.waitFault conds sat = none →
        exec (.waitSatisfied n) s = .next (completeBlocked (v.addPends [v.result (v.cyc + 4) (.s d) (maskOf sat)]) (v.cyc + 4))) ∧
      (∀ sat i cause, u.waitNow conds all lim dl mark = .go sat → u.g.waitFault conds sat = some (i, cause) →
        let w := conds.getD i 0; let e := u.g.entryOf w
        exec (.waitSatisfied n) s = .next (trapBlocked { u with g := u.g.setEntry (bits w.toNat 48 8) { e with reported := true } }
          ⟨cause, i, w.toNat⟩ e.opreg)) ∧
      (∀ sat, u.waitNow conds all lim dl mark = .timeout sat →
        exec (.waitTimeout n) s = .next (completeBlocked (u.addPends [u.result (u.cyc + 4) (.s d) (maskOf sat + 0x100)]) (u.cyc + 4))) ∧
      (∀ i, u.waitNow conds all lim dl mark = .missed i →
        exec (.promiseMissed n) s = .next (trapBlocked u ⟨.promiseMissed, i, (conds.getD i 0).toNat⟩))) ∧
    (∀ det w, u.hangOf = some (det, w) → exec (.hang n) s = .next (trapBlocked u ⟨.hang, det, w.toNat⟩)) ∧
    (∀ e d why, u.g.here.block = .hold e d why false → u.holdOver e why = true →
      exec (.engineIssueHoldEnd n) s = .next (u.setHere { u.g.here with block := .hold e d why true }))

/-- R270, R297 to R299: how the channel words that block go on, and what they count; a message whose bytes have come lands when every
earlier one has. -/
def Obligations.ChannelSteps : Prop :=
  (∀ n s, let u := s.atSlot n
     (∀ f ch src len d iss x co c, u.g.here.block = .chsend f ch src len d iss → u.channel ch = some (x, co, c) →
       u.canClaim f ch src len = true → ∃ t o, exec (.channelSlotClaim n) s = .next t ∧
         issued u t 4 (u.sendOp f ch src len x co c).2 f.d o ∧ (u.background f.slk = true → o.time = neverTime iss) ∧
         t.cohorts = (u.setChan co ch { c with sent := next32 c.sent }).cohorts ∧ t.g.here.block = .none) ∧
     (∀ d ch dl turn x co c, u.g.here.block = .chrecv d ch dl turn → u.channel ch = some (x, co, c) → c.ready = true →
       u.recvFirst ch turn = true →
       exec (.channelMessageTake n) s = .next (completeBlocked ((u.setChan co ch { c with recv := next32 c.recv }).addPends
         [u.result (u.cyc + 4) (.s d) (u.slotAddr x co c.recv)]) (u.cyc + 1))) ∧
     (∀ d ch dl x co c, u.g.here.block = .chrel d ch dl → u.channel ch = some (x, co, c) → u.fenceClear true = true → c.rel ≠ c.recv →
       exec (.channelSlotFree n) s = .next (completeBlocked ((u.setChan co ch { c with rel := next32 c.rel }).addPends
         [u.result (u.cyc + 4) (.s d) (u.slotAddr x co c.rel)]) (u.cyc + 1)))) ∧
  (∀ id s o i d x core a, s.op? id = some o → o.eng = 4 → o.items = [i] → i.away = false → s.messageSlot o i = some (d, x, core, a) →
     (d.chans.getD o.aval.toNat .zero).landed = i.idx → exec (.channelLanding id) s =
       .next ((s.completeOp o).setChan d o.aval.toNat { d.chans.getD o.aval.toNat .zero with landed := next32 i.idx }))


/-! ## Operations in flight -/

/-- The bytes of scratchpad that n bytes from a view address on are, and those of a unit of a copy. -/
def bytesAt (c : Cohort) (core a n : Nat) : List (Nat × Nat) := (List.range n).map fun i => (core, c.linear (a + i))
def placesOf (s : State) (u : CUnit) : List (Nat × Nat) :=
  match u.dst with
  | .pad c core a => bytesAt (s.cohort c) core a u.len
  | _ => []
/-- Every byte of scratchpad but those listed stands. -/
def padsStand (s t : State) (xs : List (Nat × Nat)) : Prop := ∀ core b, (core, b) ∉ xs → (t.pad core).read b = (s.pad core).read b
/-- How item j of an operation stands. -/
def itemSt (t : State) (id j : Nat) : Option ItemSt := (t.op? id).bind fun p => (p.items[j]?).map (·.st)

/-- What the packet of an item asks of its home slice (R245, R246, R294). -/
def asksOf (o : Op) (i : Item) (a : PAct) : Prop :=
  (o.opc = 0xD0 → a = .read (2 ^ (o.cfield % 4))) ∧ (o.opc = 0xD1 → a = .write i.data) ∧
  (o.opc = 0xD2 → o.cfield % 16 < 14 → let n := aopBytes (o.cfield % 16)
    a = .rmw (o.cfield % 16) (BitVec.ofNat 64 (leNat (i.data.take n))) (BitVec.ofNat 64 (leNat (i.data.take n))) (o.cfield.testBit 4)) ∧
  (o.opc = 0xD2 → 14 ≤ o.cfield % 16 → let n := aopBytes (o.cfield % 16)
    a = .rmw (o.cfield % 16) (BitVec.ofNat 64 (leNat ((i.data.drop n).take n))) (BitVec.ofNat 64 (leNat (i.data.take n))) (o.cfield.testBit 4)) ∧
  (o.opc = 0xD3 → a = .watch o.bval) ∧ (o.opc = 0xD5 → a = .read (Tens.ofBytes o.rec1).eb) ∧
  (o.opc = 0xD6 → a = if o.esub / 2 = 0 then .write i.data else .red (o.esub / 2) i.data)

/-- STATUS of an operation that ends (R255); bad: a poisoned barrier object of its own is one cause (log 31). -/
def endStatus (o : Op) (bad : Bool) : Nat :=
  if o.cancelled then 3 else if o.tfault then 2 else if o.poisoned || bad then 4 else if o.failedCount = 0 then 0 else 1

/-- The operation is gone with its locks, and its gang's promise table entry and LATE register say how it ended (R250, R254, R281, R287). -/
def endsWith (s t : State) (o : Op) (status failed listed : Nat) : Prop :=
  (∀ p ∈ t.ops, p.id ≠ o.id) ∧ (∀ x ∈ t.locks, x.op ≠ o.id) ∧ t.mem = s.mem ∧
  ∀ g, s.gang? o.cohort o.f2 = some g → ∃ h, t.gang? o.cohort o.f2 = some h ∧ h.lanes = g.lanes ∧
    h.late = (if o.late then min (g.late + 1) 0xFFFFFFFF else g.late) ∧ let e := g.prom.getD o.tag .free
    (o.tag < g.prom.length → e.open_ = true → e.eng = o.eng → e.time = o.time → h.prom.getD o.tag .free =
      { e with st := .completed, status := status, late := o.late, failed := failed, items := o.items.length, listed := listed })

/-- Item j of an operation waits for the answers to packets ps, which the operation has then to send; nothing else of memory, scratchpad or locks
changes. -/
def startsPackets (s t : State) (o : Op) (j : Nat) (i : Item) (ps : List Packet) (wr : Bool) : Prop :=
  (∃ q, t.op? o.id = some q ∧ q.items[j]? = some { i with st := .sent, wr := wr, left := ps.length, bad := [] } ∧ q.out = o.out ++ ps) ∧
  t.mem = s.mem ∧ t.spad = s.spad ∧ t.locks = s.locks

/-- An element of a packet carries another one's bytes: it names them, and copy data among its own. -/
def PElem.within (e x : PElem) : Prop :=
  x.item = e.item ∧ x.la ≤ e.la ∧ e.la + e.span.2 ≤ x.la + x.span.2 ∧
  ∀ bs, e.act = .copy bs → ∃ cs, x.act = .copy cs ∧ (cs.drop (e.la - x.la)).take bs.length = bs

/-- R245, R246, R253, R255, R256, R261, R266, R267, R276, R278, R281, R287, R288, R297: the end of a lock wait and the probe pass. An item of a copy
sends reads of its sources' lines, then its data, then takes effect: its destination holds what its units give, and no other byte changes (packets
and effect as log 8 has them). A message goes as channel data, and its bytes come to its slot. Each packet enters the router of the pair with the
slack that is left. The items of a sector go as one packet, with what each asks. A completed operation is gone with its locks; its promise table
entry, its record and its fault list say how it ended; what it returned stands in the lanes, the word of a `watch` at its landing; its byte count
is subtracted from its barrier object (a poisoned one: log 31; one of a saved cohort: log 42). -/
def Obligations.OperationSteps : Prop :=
  ∀ id s o, s.op? id = some o → let c := s.cohort o.cohort
    (o.waited = false → s.lockWaits id = false → (o.opc ≠ 0xD2 →
        exec (.lockWaitEnd id) s = .next (s.setOp { o with waited := true })) ∧
      (o.opc = 0xD2 → s.fxBefore o = false → exec (.lockWaitEnd id) s = .next (s.setOp { s.readOperands o with waited := true }))) ∧
    (o.eng = 2 → o.probed = false → s.opGo o = true → c.st = .resident →
      let reaches (i : Item) : Prop := ∃ p, s.reach o.part o.pasid i.addr o.use = .ok p
      let es := s.found o.part o.pasid ((o.items.filter fun i => i.st = .todo).map (·.addr))
      ((∀ i ∈ o.items, i.st = .todo → reaches i) → o.opc ≠ 0xD7 →
        exec (.probePass id) s = .next ((s.setOp { o with probed := true, pins := s.pinsOf { o with probed := true } }).keep es)) ∧
      ((∀ i ∈ o.items, i.st = .todo → reaches i) → o.opc = 0xD7 → ∃ t, exec (.probePass id) s = .next t ∧
        t = (s.setOp { o with probed := true, pins := s.pinsOf { o with probed := true },
                              items := o.items.map fun i => if i.st = .todo then { i with st := .done } else i }).keep es) ∧
      ((∃ i ∈ o.items, i.st = .todo ∧ ¬reaches i) → exec (.probePass id) s =
        .next ((s.setOp { o with probed := true, tfault := true, items := probeFail s { o with probed := true } o.items [] }).keep es))) ∧
    (∀ j i, o.items[j]? = some i → (o.eng = 1 ∨ o.eng = 4) → s.opGo o = true → (o.eng = 1 → s.copyRuns o j = true) → i.st = .sent →
      o.ofHub = false → ∀ p, o.outOf j = some p → let r := 48 * (o.core / 48) + pairRouter (o.core / 2 % 24)
      (s.router r).load portLocal < 4 → portLocal < (s.router r).bufs.length →
      ∃ t q, exec (.itemPerform id j) s = .next t ∧ itemSt t id j = some .sent ∧ (t.op? id).map (·.out) = some (o.out.erase p) ∧
        (t.router r).bufs.getD portLocal [] = (s.router r).bufs.getD portLocal [] ++ [q] ∧ q.elems = p.elems ∧ q.kind = p.kind ∧
        q.op = p.op ∧ q.dnode = p.dnode ∧ (q.slack, q.late) = o.slackNow s.now ∧ t.mem = s.mem ∧ t.spad = s.spad ∧ t.locks = s.locks) ∧
    (∀ j i wr, o.items[j]? = some i → o.eng = 1 → s.opGo o = true → s.copyRuns o j = true → let us := s.itemUnits o j
      us ≠ [] → s.copyFault o i us = none → (wr = false → i.st = .todo ∧ s.itemWaits o j i = false) →
      (wr = true → i.wr = false ∧ (i.st = .applied ∨ (i.st = .todo ∧ s.itemWaits o j i = false ∧ s.copyElems o j us false = []))) →
      let es := s.copyElems o j us wr
      es ≠ [] → ∃ t ps, exec (.itemPerform id j) s = .next t ∧ startsPackets s t o j i ps wr ∧
        (∀ u ∈ us, (wr = false → ∀ r ∈ u.reads, ∀ v ∈ lineParts r.1 r.2, ∀ x, s.lies o v = some x →
            ∃ e ∈ es, e.1 = x.1 ∧ e.2.la = x.2.1 ∧ e.2.act = .read v.2) ∧
          (wr = true → ∀ va bs, u.dst = .virt va → u.val s = .ok bs → ∀ v ∈ lineParts va u.len, ∀ x, s.lies o v = some x →
            ∃ e ∈ es, e.1 = x.1 ∧ e.2.la = x.2.1 ∧ e.2.act = .copy ((bs.drop (v.1 - va)).take v.2))) ∧
        ∀ e ∈ es, ∃ p ∈ ps, p.kind = (if wr then 10 else 1) ∧ p.dnode = e.1 ∧ p.op = o.id ∧ p.bg = o.bg ∧ ∃ x ∈ p.elems, PElem.within e.2 x) ∧
    (∀ j i, o.items[j]? = some i → o.eng = 1 → s.opGo o = true → s.copyRuns o j = true → s.spadOk → s.memOk →
      let us := s.itemUnits o j; let todo (wr : Bool) : Prop := s.copyElems o j us wr = []
      us ≠ [] → s.copyFault o i us = none →
      ((i.st = .applied ∧ (i.wr = true ∨ todo true)) ∨ (i.st = .todo ∧ s.itemWaits o j i = false ∧ todo false ∧ todo true)) →
      (∀ u ∈ us, ∃ bs, u.val s = .ok bs ∧ bs.length = u.len) →
      ∃ t, exec (.itemPerform id j) s = .next t ∧ itemSt t id j = some .done ∧ t.locks = s.locks ∧ t.g.s = s.g.s ∧
        ((∀ u ∈ us, ∃ d core a, u.dst = .pad d core a) → t.mem = s.mem ∧ padsStand s t (us.flatMap (placesOf s)) ∧
          ((us.flatMap (placesOf s)).Nodup → ∀ u ∈ us, ∀ d core a bs, u.dst = .pad d core a → u.val s = .ok bs →
            t.cohRead (s.cohort d) core a u.len = bs)) ∧
        (∀ u va b pg, us = [u] → u.dst = .virt va → u.val s = .ok [b] → s.reach o.part o.pasid va { rd := false, wr := true } = .ok pg →
          pg.node = (s.part o.part).node → t.spad = s.spad ∧ ∀ x, t.mem.read x = if x = pg.at_ va then b else s.mem.read x) ∧
        (∀ u core n bs, us = [u] → u.dst = .bblk core n → u.val s = .ok bs → bs.length = blockLen →
          (∀ m ∈ (s.pair (core / 2)).bbuf, m.wf = true) → core % 2 < (s.pair (core / 2)).bbuf.length →
          core % 2 < (s.pair (core / 2)).tags.length → n < ((s.pair (core / 2)).tags.getD (core % 2) []).length →
          t.spad = s.spad ∧ t.mem = s.mem ∧ (t.pair (core / 2)).bBytes (core % 2) n = bs ∧ (t.pair (core / 2)).bTag (core % 2) n = .plain ∧
          ∀ m, m ≠ n → (t.pair (core / 2)).bBytes (core % 2) m = (s.pair (core / 2)).bBytes (core % 2) m)) ∧
    (∀ j i node la, o.items[j]? = some i → i.st = .todo → i.psn = none → s.opGo o = true →
      (o.eng = 3 ∨ (o.eng = 2 ∧ o.probed = true ∧ o.tfault = false ∧ c.st = .resident)) → s.itemPlace o i = .ok (node, la) →
      let r := 48 * (o.core / 48) + pairRouter (o.core / 2 % 24)
      let mate (n : Nat) (x : Item) : Prop := o.items[n]? = some x ∧
        (n = j ∨ (s.itemSc o j i = false ∧ x.st = .todo ∧ x.psn = none ∧ x.addr / 64 = i.addr / 64))
      (s.router r).load portLocal < 4 → portLocal < (s.router r).bufs.length → (∀ n x, mate n x → s.itemWaits o n x = false) →
      ∃ t p, exec (.itemPerform id j) s = .next t ∧
        (t.router r).bufs.getD portLocal [] = (s.router r).bufs.getD portLocal [] ++ [p] ∧
        p.op = o.id ∧ p.dnode = node ∧ p.leg = .net ∧ (p.slack, p.late) = o.slackNow s.now ∧ p.bg = o.bg ∧
        (∀ n x, mate n x → itemSt t id n = some .sent ∧ ∃ e ∈ p.elems, e.item = n ∧ e.la = la / 64 * 64 + x.addr % 64 ∧ asksOf o x e.act) ∧
        (∀ e ∈ p.elems, ∃ x, mate e.item x) ∧ t.mem = s.mem ∧ t.spad = s.spad ∧ t.locks = s.locks) ∧
    (∀ j i d x core a, o.items[j]? = some i → o.eng = 4 → s.opGo o = true → s.spadOk →
      s.messageSlot o i = some (d, x, core, a) → let src := o.coreOfAddr o.bval.toNat; let b := o.bval.toNat % 2 ^ 21; let n := o.cval.toNat
      s.cohPoison c src b n = false → d.linInside a n = true →
      (i.st = .todo → ∃ t ps, exec (.itemPerform id j) s = .next t ∧ startsPackets s t o j i ps true ∧
        (ps.flatMap fun p => p.elems.flatMap fun e => match e.act with | .copy bs => bs | _ => []) = s.cohRead c src b n ∧
        ∀ p ∈ ps, p.kind = 11 ∧ p.op = o.id ∧ p.dnode = p.snode ∧ p.ddie = d.pair / 24 ∧ p.drt = pairRouter (d.pair % 24)) ∧
      (i.st = .applied → ∃ t, exec (.itemPerform id j) s = .next t ∧ itemSt t id j = some .done ∧ t.mem = s.mem ∧
        t.cohRead d core a n = s.cohRead c src b n ∧ padsStand s t (bytesAt d core a n))) ∧
    (s.opDone o = true → c.st ≠ .saved → let st := endStatus o (s.barPoison o)
      ∃ t, exec (.operationCompletion id) s = .next t ∧ endsWith s t o st o.failedCount o.listedCount ∧ t.g.s = s.g.s ∧
        (auxFlc o.aux ≠ 0 → o.subtracts = false → s.spadOk → let a := auxFla o.aux % 2 ^ 21; let core := o.coreOfAddr (auxFla o.aux)
          c.linInside a (16 * (auxFlc o.aux + 1)) = true →
          t.cohRead c core a 16 = leBytes 4 (st + if o.late then 256 else 0) ++ leBytes 4 o.failedCount ++ leBytes 4 o.items.length ++
            leBytes 4 (o.listed + o.entries.length) ∧
          t.cohRead c core (a + 16 * (o.listed + 1)) (16 * o.entries.length) =
            o.entries.flatMap fun p => leBytes 4 p.1 ++ leBytes 4 p.2.1 ++ leBytes 8 p.2.2) ∧
        (auxFlc o.aux = 0 → o.opc ∉ [0xD0, 0xD2, 0xD3, 0xD5] →
          (o.subtracts = false → t.spad = s.spad) ∧
          (o.subtracts = true → s.barPoison o = false → s.fixedFx = [] → s.spadOk →
            let core := o.coreOfAddr (auxBara o.aux); let a := auxBara o.aux % 2 ^ 21; c.linInside a 16 = true →
            padsStand s t (bytesAt c core a 16) ∧
            ∀ e r p gen rest dp ph, e < 2 ^ 32 → r < 2 ^ 32 → p < 2 ^ 32 → gen < 2 ^ 16 → rest < 2 ^ 14 → dp < 2 → ph < 2 →
              s.cohRead c core a 16 = leBytes 4 e ++ leBytes 4 r ++ leBytes 4 p ++ leBytes 4 (gen * 2 ^ 16 + 4 * rest + 2 * dp + ph) →
              t.cohRead c core a 16 = phased e r ((p + (2 ^ 32 - o.bytes % 2 ^ 32)) % 2 ^ 32) gen ph dp)) ∧
        (auxFlc o.aux = 0 → o.subtracts = false → s.spadOk → (o.opc = 0xD0 ∨ o.opc = 0xD5 ∨ (o.opc = 0xD2 ∧ o.cfield.testBit 4 = false)) →
          ∀ g, s.gang? o.cohort o.f2 = some g →
          let got (i : Item) : List Byte := if o.opc = 0xD2 then i.data.take (aopBytes (o.cfield % 16)) else i.data
          let at_ (i : Item) : Nat := linOf (g.phys i.k) i.off
          let done := o.items.filter fun i => i.st = .done
          let places := done.flatMap fun i => bytesAt c o.core (at_ i) (got i).length
          padsStand s t places ∧ (places.Nodup → ∀ i ∈ done, t.cohRead c o.core (at_ i) (got i).length = got i)) ∧
        (auxFlc o.aux = 0 → o.subtracts = false → o.opc = 0xD2 → o.cfield.testBit 4 = true → t.spad = s.spad) ∧
        (auxFlc o.aux = 0 → o.subtracts = false → s.spadOk → o.opc = 0xD3 → ∀ i, o.items = [i] →
          let core := o.coreOfAddr o.cval.toNat; let a := o.cval.toNat % 2 ^ 21
          (i.st = .done → c.linInside a 8 = true → t.cohRead c core a 8 = i.data ∧ padsStand s t (bytesAt c core a 8)) ∧
          (i.st ≠ .done → t.spad = s.spad))) ∧
    (s.opDone o = true → c.st = .saved → ∃ t, exec (.operationCompletion id) s = .next t ∧ (∀ p ∈ t.ops, p.id ≠ id) ∧
      (∀ x ∈ t.locks, x.op ≠ id) ∧ t.spad = s.spad ∧ t.cohorts = s.cohorts ∧
      (∀ l a, s.launch? c.launch = some l → s.savedEntry c l.kern o.f2 o.tag = some a → s.memOk → let e := PEntry.ofBytes (s.mem.readN a 64)
        e.st = .inFlight → e.eng = o.eng → e.time = o.time → t.mem.readN a 1 = [2] ∧
        t.mem.readN (a + 24) 8 = leBytes 4 (endStatus o false + if o.late then 256 else 0) ++ leBytes 4 o.failedCount ∧
        ∀ x, x < a ∨ a + 64 ≤ x → t.mem.read x = s.mem.read x))


/-- The value that element e of row i of A block q takes: drained, quantised or transposed (R328, R330, R331); none for a row that is zero. A fill
of zero is +0 (R70). -/
def blockSource (s : State) (o : Op) (q i e : Nat) : Option FV :=
  let p := s.pair (o.core / 2); let c := s.cohort o.cohort
  if o.opc = 0xE4 then
    some (if o.msub.testBit 1 = true ∧ o.mask.getLsbD (bits o.bval.toNat 5 8) = false then (Ty.f32.fmt.val o.cval.toNat).plusZero
      else accVal (p.accNan (o.bval.toNat % 4) i (32 * q + e)) (p.accX (o.bval.toNat % 4) i (32 * q + e)))
  else if o.opc = 0xE6 then let d := Desc.ofWord o.bval
    if i < d.py then some (Ty.f32.fmt.val (leNat ((o.src.drop (4 * (i * d.px + 32 * q + e))).take 4))) else none
  else let x := aRow (s.aBlock c o.core (o.bval.toNat % 2 ^ 21 + blockLen * (i / 32))) (32 * q + e)
    some (blockVal x.1 8 (x.2.getD (i % 32) 0))

/-- Slots of a group, logical positions of a group and bits of an index of a sparse pattern (R321). -/
def patternOf (pat : Nat) : Nat × Nat × Nat := if pat = 0 then (2, 4, 2) else if pat = 1 then (1, 4, 2) else (4, 8, 3)

/-- The logical mantissa at position k of column c of a stored block bs with the column's metadata md: that of the highest-numbered slot of the
group of k whose index is the position of k in it, else 0 (R321). -/
def sparseMantissa (pat md : Nat) (bs : List Byte) (c k : Nat) : Nat :=
  let (n, w, b) := patternOf pat
  match (List.range n).reverse.find? fun h => md / 2 ^ (n * b * (k / w) + b * h) % 2 ^ b = k % w with
  | some h => bMant bs (n * (k / w) + h) c
  | none => 0

/-- What a matrix operation that completes in t leaves of the pair's state p in q, and of scratchpad, with no effect of its slot in flight on
its bytes; bad: it has read poisoned data (R316 to R336). -/
structure Leaves (s t : State) (o : Op) (p q : Pair) (bad : Prop) : Prop where
  /-- `azero` clears the tiles of its set, and no other (R329). -/
  azero : o.opc = 0xE5 → q.bbuf = p.bbuf ∧ q.tags = p.tags ∧ q.sct = p.sct ∧ t.spad = s.spad ∧ ∀ a, a < 4 →
    if (o.aval.toNat - 352).testBit a then ∀ i c, i < 128 → c < 128 → q.accX a i c = 0 ∧ q.accNan a i c = false ∧ .acc a i ∉ q.psn
    else q.acc.getD a [] = p.acc.getD a [] ∧ q.nan.getD a [] = p.nan.getD a []
  /-- `mma` and `mmasp` change the named tiles' rows below M alone; with no block and no CLR nothing (R318). -/
  mmaKeeps : (o.opc = 0xE0 ∨ o.opc = 0xE1) → let x := MmaWord.ofNat o.bval.toNat
    q.bbuf = p.bbuf ∧ q.tags = p.tags ∧ q.sct = p.sct ∧ t.spad = s.spad ∧
    (x.blocks (o.opc = 0xE1) o.mmode o.mask = [] → ¬(o.opc = 0xE0 ∧ o.xsub % 2 = 1) → q.acc = p.acc ∧ q.nan = p.nan) ∧
    ∀ a i c, (∀ m ∈ p.acc, m.wf = true) → (∀ m ∈ p.nan, m.wf = true) → i < 128 → c < 128 → x.m ≤ 128 →
      (x.m ≤ i ∨ ∀ j ∈ x.tiles o.mmode o.mask, x.acc + j ≠ a) → q.accX a i c = p.accX a i c ∧ q.accNan a i c = p.accNan a i c
  /-- `mma` adds the exact terms of its K blocks to what the element held, or to 0 with CLR (R86, R318). -/
  mmaAdds : o.opc = 0xE0 → let x := MmaWord.ofNat o.bval.toNat; let clr := o.xsub % 2 = 1; let bs := x.blocks false o.mmode o.mask
    ∀ j i c, j ∈ x.tiles o.mmode o.mask → (∀ m ∈ p.acc, m.wf = true) → (∀ m ∈ p.nan, m.wf = true) → x.acc + j < p.acc.length →
      x.acc + j < p.nan.length → i < x.m → x.m ≤ 128 → c < 128 → bs ≠ [] ∨ clr →
      let term (b : Nat) : Option Int := let n := x.bf + j * x.kb + b
        rowTerm (seenRow (o.pln + 1) (aRow (s.aBlock (s.cohort o.cohort) o.core (o.aval.toNat % 2 ^ 21 + blockLen * b)) i))
          (seenRow 8 (denseCol (p.bBytes (o.core % 2) n) (p.bTag (o.core % 2) n) c))
      q.accX (x.acc + j) i c = ofInt 320 ((if clr then 0 else (p.accX (x.acc + j) i c : Int)) + (bs.map fun b => (term b).getD 0).sum) ∧
      (q.accNan (x.acc + j) i c = true ↔ (¬clr ∧ p.accNan (x.acc + j) i c = true) ∨ bad ∨ ∃ b ∈ bs, term b = none)
  /-- `mmasp` adds the exact terms of the two logical K blocks of each of its stored blocks to what the element held (R86, R318, R320, R321). -/
  mmaspAdds : o.opc = 0xE1 → let x := MmaWord.ofNat o.bval.toNat; let bs := x.blocks true o.mmode o.mask; let mb := metaLen o.xsub
    ∀ j i c, j ∈ x.tiles o.mmode o.mask → (∀ m ∈ p.acc, m.wf = true) → (∀ m ∈ p.nan, m.wf = true) → x.acc + j < p.acc.length →
      x.acc + j < p.nan.length → i < x.m → x.m ≤ 128 → c < 128 → bs ≠ [] →
      let md (m : Nat) : Nat := let a := o.cval.toNat + mb * m + mb / 128 * c
        leNat (s.cohRead (s.cohort o.cohort) (o.coreOfAddr a) (a % 2 ^ 21) (mb / 128))
      let term (y : Nat × Nat) : Option Int := let m := j * (x.kb / 2) + y.1; let blk := p.bBytes (o.core % 2) (x.bf + m)
        rowTerm (seenRow (o.pln + 1) (aRow (s.aBlock (s.cohort o.cohort) o.core (o.aval.toNat % 2 ^ 21 + blockLen * (2 * y.1 + y.2))) i))
          (seenRow 8 (blockScale blk c, (List.range 32).map fun k => sparseMantissa o.xsub (md m) blk c (32 * y.2 + k)))
      let ys := bs.flatMap fun b => [(b, 0), (b, 1)]
      q.accX (x.acc + j) i c = ofInt 320 ((p.accX (x.acc + j) i c : Int) + (ys.map fun y => (term y).getD 0).sum) ∧
      (q.accNan (x.acc + j) i c = true ↔ p.accNan (x.acc + j) i c = true ∨ bad ∨ ∃ y ∈ ys, term y = none)
  /-- `hzn` leaves its mask in mC and the number of its ones in the register after D (R325). -/
  hzn : o.opc = 0xE3 → q.acc = p.acc ∧ q.bbuf = p.bbuf ∧ q.sct = p.sct ∧ t.spad = s.spad ∧
    let x := HznWord.ofNat o.aval.toNat; let tau := Ty.f32.fmt.val o.bval.toNat; let l := min x.t x.cl
    let v (i k : Nat) : FV := Ty.bf16.fmt.val (p.score i k)
    let near (i k : Nat) : Prop := let d := FV.add 0 (v i k) (maxNumber ((List.range l).map (v i))).neg
      d.isNan = false ∧ tau.isNan = false ∧ d.lt tau.neg = false
    let sd := bits o.word.toNat 37 9 - 255
    ∀ g, s.gang? o.cohort o.f2 = some g → o.cfield % 8 < g.m.length → sd < g.s.length → 256 ≤ bits o.word.toNat 37 9 →
      ∃ h, t.gang? o.cohort o.f2 = some h ∧ let m : W256 := h.m.getD (o.cfield % 8) 0
        (∀ k, k < 256 → (m.getLsbD k = true ↔ k < l ∧ (k < x.f ∨ x.t ≤ k + x.w ∨ ∃ i ≤ x.mr, near i k))) ∧
        h.s.getD sd 0 = BitVec.ofNat 64 ((List.range 256).filter fun k => m.getLsbD k).length ∧
        (∀ k, k ≠ o.cfield % 8 → h.m[k]? = g.m[k]?) ∧ ∀ k, k ≠ sd → h.s[k]? = g.s[k]?
  /-- `bput` leaves the source's bytes, the tag and the poison in its blocks, and no other block changes (R316, R333). -/
  bput : o.opc = 0xE8 → let x := BputWord.ofNat o.bval.toNat; let form := o.msub % 4; let core := (o.core + x.core) % 2
    let z := if form = 1 then 256 + 512 * (x.pk + 1) else 4352; let src := o.coreOfAddr o.aval.toNat; let a := o.aval.toNat % 2 ^ 21
    core < p.bbuf.length → core < p.tags.length → x.first + x.count ≤ (p.tags.getD core []).length → (∀ m ∈ p.bbuf, m.wf = true) →
    q.acc = p.acc ∧ q.nan = p.nan ∧ q.sct = p.sct ∧ t.spad = s.spad ∧
    (∀ j, j < x.count → let bs := s.cohRead (s.cohort o.cohort) src (a + z * j) z
      q.bBytes core (x.first + j) = ((List.range 128).flatMap fun k => leBytes 2 (leNat ((bs.drop (2 * k)).take 2) % 1024)) ++ bs.drop 256 ++
        List.replicate (4352 - z) 0 ∧
      q.bTag core (x.first + j) = (if form = 0 then .plain else if form = 1 then .planes (x.pk + 1) else .sparse x.pat) ∧
      (.block core (x.first + j) ∈ q.psn ↔ s.cohPoison (s.cohort o.cohort) src (a + z * j) z = true)) ∧
    ∀ i m, i ≠ core ∨ m < x.first ∨ x.first + x.count ≤ m → q.bBytes i m = p.bBytes i m ∧ q.bTag i m = p.bTag i m
  /-- `mrd` leaves rows of the pair's state in scratchpad, and spoils them where they are poisoned (R316, R336). -/
  mrd : o.opc = 0xEA → let x := SelWord.ofNat o.bval.toNat; let n := x.bytes (o.msub % 4); let core := o.coreOfAddr o.aval.toNat
    let a := o.aval.toNat % 2 ^ 21; let c := s.cohort o.cohort
    s.spadOk → c.linInside a n = true → padsStand s t (bytesAt c core a n) ∧ q.acc = p.acc ∧ q.nan = p.nan ∧ q.bbuf = p.bbuf ∧ q.sct = p.sct ∧
    let bs := t.cohRead c core a n
    (o.msub % 4 = 0 → ∀ i k, i < x.nrow → k < 128 → leNat ((bs.drop (5120 * i + 40 * k)).take 40) = p.accX x.acc (x.row + i) k) ∧
    (o.msub % 4 = 1 → ∀ i k, i < x.nrow → k < 128 →
      (bs.getD (16 * i + k / 8) 0).toNat.testBit (k % 8) = p.accNan x.acc (x.row + i) k) ∧
    (o.msub % 4 = 2 → ∀ i k, i < x.nrow → k < 256 → leNat ((bs.drop (512 * i + 2 * k)).take 2) = p.score (x.row + i) k) ∧
    (o.msub % 4 = 3 → leNat bs = o.mask.toNat) ∧
    (bad → ∀ i, i < n / 4 → t.padPoison core (c.linear (a + 4 * i)) 1 = true)
  /-- `mwr` brings rows back: values without flags, flags without values, scores, or a mask register; poisoned data sets the flags (R316, R336). -/
  mwr : o.opc = 0xEB → let x := SelWord.ofNat o.bval.toNat; let n := x.bytes (o.msub % 4); let c := s.cohort o.cohort
    let bs := s.cohRead c (o.coreOfAddr o.aval.toNat) (o.aval.toNat % 2 ^ 21) n
    let mine (a i : Nat) : Prop := a = x.acc ∧ x.row ≤ i ∧ i < x.row + x.nrow
    x.row + x.nrow ≤ 128 → (∀ m ∈ p.acc, m.wf = true) → (∀ m ∈ p.nan, m.wf = true) → p.sct.wf = true → x.acc < p.acc.length →
    x.acc < p.nan.length → q.bbuf = p.bbuf ∧ t.spad = s.spad ∧
    (o.msub % 4 = 0 → q.sct = p.sct ∧ ∀ a i k, i < 128 → k < 128 →
      (mine a i → q.accX a i k = leNat ((bs.drop (5120 * (i - x.row) + 40 * k)).take 40) ∧
        (q.accNan a i k = true ↔ bad ∨ p.accNan a i k = true)) ∧
      (¬mine a i → q.accX a i k = p.accX a i k ∧ q.accNan a i k = p.accNan a i k)) ∧
    (o.msub % 4 = 1 → q.sct = p.sct ∧ q.acc = p.acc ∧ ∀ a i k, i < 128 → k < 128 →
      (mine a i → (q.accNan a i k = true ↔ bad ∨ (bs.getD (16 * (i - x.row) + k / 8) 0).toNat.testBit (k % 8) = true)) ∧
      (¬mine a i → q.accNan a i k = p.accNan a i k)) ∧
    (o.msub % 4 = 2 → q.acc = p.acc ∧ q.nan = p.nan ∧ ∀ i k, i < 128 → k < 256 →
      (mine x.acc i → q.score i k = leNat ((bs.drop (512 * (i - x.row) + 2 * k)).take 2) ∧ (.score i ∈ q.psn ↔ bad)) ∧
      (¬mine x.acc i → q.score i k = p.score i k)) ∧
    (o.msub % 4 = 3 → q.acc = p.acc ∧ q.nan = p.nan ∧ q.sct = p.sct ∧ ∀ g, s.gang? o.cohort o.f2 = some g → ∃ h, t.gang? o.cohort o.f2 = some h ∧
      h.s = g.s ∧ h.m = g.m.set x.mreg (BitVec.ofNat 256 (leNat bs)))
  /-- `drain.ca`, `qnt` and `trq` leave converted rows in their A blocks, split across the pair, and spoil them where they read poison (R305,
  R316, R328, R330, R331). -/
  blocks : o.opc = 0xE4 ∧ o.msub % 2 = 1 ∨ o.opc = 0xE6 ∨ o.opc = 0xE7 → let c := s.cohort o.cohort; let a := o.aval.toNat % 2 ^ 21
    let nb := if o.opc = 0xE6 then (Desc.ofWord o.bval).px / 32 else 4
    s.spadOk → c.linInside a (nb * blockLen) = true → q.acc = p.acc ∧ q.nan = p.nan ∧ q.bbuf = p.bbuf ∧ q.sct = p.sct ∧
    ∀ k i, k < nb → i < 128 → let row := aRow (t.aBlock c o.core (a + blockLen * k)) i
      let want : Nat × List Nat := if blockSource s o k i 0 = none then (0, List.replicate 32 0)
        else toBlock o.mrnd ((List.range 32).map fun e => (blockSource s o k i e).getD .nan)
          ((List.range 32).map fun e => rho o.mrnd o.z ((128 * k + i) * 32 + e))
      row.1 = want.1 % 1024 ∧ (∀ e, e < 32 → row.2.getD e 0 = want.2.getD e 0 % 256) ∧
      let core := if i < 64 then o.core else o.core / 2 * 2 + (o.core + 1) % 2
      (bad → ∀ off ∈ 2 * i :: (List.range 8).map (fun n => 256 + 512 * n + 4 * i),
        t.padPoison core (c.linear (a + blockLen * k + off)) 1 = true)
  /-- `drain.pl` leaves each element of the tile, or the fill, rounded in its place of the plane (R328). -/
  plane : o.opc = 0xE4 → o.msub % 2 = 0 → ∀ g, s.gang? o.cohort o.f2 = some g → s.spadOk → let d := Desc.ofWord o.aval; let c := s.cohort o.cohort
    let at_ (x y : Nat) : Nat := linOf (g.phys (d.place g x y).1) (d.offAt g (d.place g x y).1 0 (d.place g x y).2)
    let places := (elemOrder 128 128 1).flatMap fun z => bytesAt c o.core (at_ z.1 z.2.1) d.wb
    padsStand s t places ∧ q.acc = p.acc ∧ q.nan = p.nan ∧ (places.Nodup → ∀ x y, x < 128 → y < 128 → t.cohRead c o.core (at_ x y) d.wb =
      leBytes d.wb (roundFV o.mty.fmt o.mrnd (o.mty = .e4m3) ((blockSource s o 0 y x).getD .nan) (rho o.mrnd o.z (128 * y + x))))
  /-- `scout` leaves the scores of its rows and key tiles (R323). -/
  scout : o.opc = 0xE2 → let x := ScoutWord.ofNat o.bval.toNat
    q.acc = p.acc ∧ q.nan = p.nan ∧ q.bbuf = p.bbuf ∧ t.spad = s.spad ∧ (p.sct.wf = true → x.m ≤ 128 → x.st + x.nk ≤ 256 →
      ∀ i k, i < 128 → k < 256 →
        (i < x.m → x.st ≤ k → k < x.st + x.nk → q.score i k = scoreOf o.cval.toNat (maxTerm ((List.range 128).map fun c =>
          sumTerms ((List.range x.kb).map fun b => let n := x.bf + (k - x.st) * x.kb + b
            (seenRow (o.pln + 1) (aRow (s.aBlock (s.cohort o.cohort) o.core (o.aval.toNat % 2 ^ 21 + blockLen * b)) i),
             seenRow (o.pln + 1) (denseCol (p.bBytes (o.core % 2) n) (p.bTag (o.core % 2) n) c))))) % 2 ^ 16) ∧
        (x.m ≤ i ∨ k < x.st ∨ x.st + x.nk ≤ k → q.score i k = p.score i k))

/-- R305 to R307, R316, R318, R320, R321, R323, R325, R328 to R331, R333, R336: the head of a matrix queue starts, and completes with what its entry gives
(`Leaves`): then it leaves the queue, and its entry ends with OK, or with ENGINE_ERROR where it has read poisoned data (of B blocks and scores: log 31). -/
def Obligations.MatrixSteps : Prop :=
  ∀ n s o, s.matHead n = some o →
    (o.started = none → o.icyc < (s.pair n).cyc →
      exec (.matrixOpStart n) s = .next (s.setOp { o with started := some (s.pair n).cyc })) ∧
    (∀ b, o.started = some b → b + o.dur ≤ (s.pair n).cyc → ∃ t, exec (.matrixOpComplete n) s = .next t ∧
      (∀ p ∈ t.ops, p.id ≠ o.id) ∧ (∀ x ∈ t.locks, x.op ≠ o.id) ∧ t.mem = s.mem ∧ (t.pair n).matq = (s.pair n).matq.drop 1 ∧
      (s.fxBefore o = false → endsWith s t o (if s.matPoison o then 4 else 0) 0 0 ∧
        (o.core / 2 = n → Leaves s t o (s.pair n) (t.pair n) (s.matPoison o = true))))

/-! ## The active set -/

/-- R36, R96, R238, R355, R356: a gang leaves and enters the active set of its core; one that has no lane left, with every result and effect
landed, ends and leaves the launch barriers it has not dropped. -/
def Obligations.GangStates : Prop :=
  (∀ s, (s.goesPending = true → exec .gangToPending s = .next { s with g := { s.g with st := .pending, eligAt := none } }) ∧
     (s.entersActive = true →
       exec .pendingEntersActive s = .next { s with g := { s.g with st := .active, activeAt := s.cyc, eligAt := none } } ∧
       s.g.st = .pending ∧ (s.activeOn (s.gangCore s.g)).length < Config.activeSet) ∧
     (s.rotatesOut = true → exec .activeRotationOut s = .next { s with g := { s.g with st := .pending, eligAt := some s.cyc } } ∧
       Config.activeSet ≤ (s.activeOn (s.gangCore s.g)).length)) ∧
  (∀ s, let u := s.land; u.g.ends = true →
     exec .gangEnd s = .next { u with g := { u.g with st := .exited, fx := u.leaveFxs.foldl addFx u.g.fx } })


/-! ## The network, the slices, CXL and the fabric -/

/-- R222, R272, R275, R279, R280, R395: a router grants, the head of a buffer perhaps merged with what is behind it (log 35), powers off, wakes, 24
half ns after it powered off with packets in it (log 13), and waiting packets lose slack. -/
def Obligations.RouterSteps : Prop :=
  ∀ r s,
    (∀ out q p rest, (s.router r).on = true → s.arbiter r out = some q →
      mergeFront s.draws ((s.router r).bufs.getD q []) = p :: rest →
      let v := ({ s with draws := s.draws + 1 } : State).setRouter r { s.router r with
        bufs := (s.router r).bufs.set q rest, last := (s.router r).last.set out q, idle := s.halfNs }
      exec (.routerGrant r out) s = .next (if out = portLocal then v.deliver r p
        else v.enterRouter (v.packetNode p) (48 * (r / 48) + (hopTo (r % 48) out).1) (hopTo (r % 48) out).2 p)) ∧
    ((s.router r).on = true → (s.router r).idle + 256 ≤ s.halfNs → exec (.routerPowerOff r) s = .next (s.setRouter r { s.router r with
      on := false, wakeAt := if (s.router r).bufs.all List.isEmpty then none else some (s.halfNs + 24) })) ∧
    (∀ t, (s.router r).wakeAt = some t → t ≤ s.halfNs →
      exec (.routerWake r) s = .next (s.setRouter r { s.router r with on := true, wakeAt := none, idle := s.halfNs })) ∧
    (s.now % 4 = 0 → s.half = false → s.tickAt ≠ s.now → ∃ t, exec .slackTick s = .next t ∧ t.tickAt = s.now ∧ t.mem = s.mem ∧
      (t.routers = s.routers.map fun x => (x.1, { x.2 with bufs := x.2.bufs.map fun b => b.map fun p => p.tickOn s.now })) ∧
      (t.cxl = s.cxl.map fun l => { l with q := l.q.map (fun e => { e with pkt := e.pkt.tickOn s.now }), rx := l.rx.map fun p => p.tickOn s.now }) ∧
      (t.ports.map (·.q) = s.ports.map fun x => x.q.map (Egress.tick s.now)))

/-- What an atomic leaves of `old` with its operands (R57, R230). -/
def aopGives (aop old opd exp new : Nat) : Prop :=
  (aop = 0 → new = (old + opd) % 2 ^ 32) ∧ (aop = 1 → new = (old + opd) % 2 ^ 64) ∧
  (aop = 2 → (new = old ∨ new = opd) ∧ toInt true 32 new = min (toInt true 32 old) (toInt true 32 opd)) ∧
  (aop = 3 → new = min old opd) ∧
  (aop = 4 → (new = old ∨ new = opd) ∧ toInt true 32 new = max (toInt true 32 old) (toInt true 32 opd)) ∧
  (aop = 5 → new = max old opd) ∧
  (aop = 6 → new = roundFV Ty.f32.fmt 0 false (FV.add 0 (Ty.f32.fmt.val old) (Ty.f32.fmt.val opd)) 0) ∧
  (aop = 7 → new = fminmax Ty.f32.fmt false false old opd) ∧ (aop = 8 → new = fminmax Ty.f32.fmt true false old opd) ∧
  (aop = 9 → new = old &&& opd) ∧ (aop = 10 → new = old ||| opd) ∧ (aop = 11 → new = old ^^^ opd) ∧
  (aop = 12 ∨ aop = 13 → new = opd) ∧ (14 ≤ aop → new = if old = exp then opd else old)

/-- What an element asks of memory leaves it with these bytes, all others as they are, and carries back e' (R211, R222, R244, R245, R295); poisoned
lines are read by none, and one that is written whole is poisoned no longer. The data of a copy is written with its item. -/
def slicedTo (s t : State) (e e' : PElem) : Prop :=
  let la := e.span.1; let n := e.span.2; let old := s.mem.readN la n
  let leaves (bs : List Byte) : Prop := (∀ b, t.mem.read b = if la ≤ b ∧ b < la + n then bs.getD (b - la) 0 else s.mem.read b) ∧
    ∀ l, l ∈ t.poison ↔ l ∈ s.poison ∧ ¬(la ≤ 256 * l ∧ 256 * (l + 1) ≤ la + n)
  (∀ bs, e.act = .write bs → leaves bs ∧ e' = e) ∧
  (∀ bs, e.act = .copy bs → t.mem = s.mem ∧ t.poison = s.poison ∧ e' = e) ∧
  (s.linePoison la n = true → (∀ bs, e.act ≠ .write bs ∧ e.act ≠ .copy bs) → (∀ c, e.act ≠ .failed c) →
    t.mem = s.mem ∧ t.poison = s.poison ∧ e' = { e with act := .failed codePoison }) ∧
  (s.linePoison la n = false →
    (∀ k, e.act = .read k → t.mem = s.mem ∧ t.poison = s.poison ∧ e' = { e with data := old }) ∧
    (∀ aop opd exp red, e.act = .rmw aop opd exp red → ∃ new, aopGives aop (leNat old) (BitVec.toNat opd) (BitVec.toNat exp) new ∧
      leaves (leBytes n new) ∧ e' = { e with data := if red then [] else old }) ∧
    (∀ rop bs, e.act = .red rop bs → leaves (leBytes n (ropNew rop (leNat old) (leNat bs))) ∧ e' = e))

/-- R211, R222, R244 to R246, R271, R273, R283, R295, R391, R392: a slice serves one of the requests it may, asking the hub for a line of the CXL tier
that its cache does not hold (open rows, and when a cached line is given up: log 13), and applies a served one, perhaps merged with the one behind it
(log 35), and answers it with what it read. A watch that finds no place is not served: it waits in the queue. A held watch that is over is
answered. What leaves the slice has a free buffer. -/
def Obligations.SliceSteps : Prop :=
  (∀ n s, let x := s.slice n; let v : State := { s with draws := s.draws + 1 }
     (∀ i is, x.servable s.draws = i :: is → ∃ j p b, j ∈ x.servable s.draws ∧ x.q[j]? = some (p, b) ∧
       let w := if p.late then v.markLate p.op else v
       let here := inHbm p.la || x.holdsLine v.draws (p.la / 256)
       (here = true → exec (.sliceServe n) s = .next (w.setSlice n { x with q := x.q.set j (p, .ready) })) ∧
       (here = false → s.replyRoom n = true → exec (.sliceServe n) s =
         .next ((w.setSlice n { x with q := x.q.set j (p, .asked), held := x.held.filter (· != p.la / 256) }).fromSlice n (w.lineRequest n p)))) ∧
     (∀ p, (mergeHead s.draws x.q).find? (fun y => y.2 = .ready) = some (p, .ready) → s.replyRoom n = true →
       let a := applyElems n p.elems (v.setSlice n { x with q := (mergeHead s.draws x.q).erase (p, .ready) })
       (p.kind ≠ 8 → exec (.sliceApply n) s = .next ((a.1.applied p).fromSlice n (p.reply a.2)) ∧
         (s.memOk → ∀ t, exec (.sliceApply n) s = .next t →
           (∀ b, (∀ e ∈ p.elems, b < e.span.1 ∨ e.span.1 + e.span.2 ≤ b) → t.mem.read b = s.mem.read b) ∧ t.spad = s.spad ∧
           ∀ e, p.elems = [e] → ∃ e', slicedTo s t e e' ∧ a.2 = [e'])) ∧
       (p.kind = 8 → exec (.sliceApply n) s = .next (watchStart a.1 n p a.2))) ∧
     (64 ≤ x.watches.length → ∀ d, ∀ i ∈ x.servable d, ∀ y, x.q[i]? = some y → y.1.kind ≠ 8)) ∧
  (∀ id s n x p, s.slices.find? (fun y => y.2.watches.any fun p => p.op = id && p.elems.any PElem.over) = some (n, x) →
     x.watches.find? (fun p => p.op = id) = some p → s.replyRoom n = true →
     let v := (s.setSlice n { x with watches := x.watches.filter fun y => y.op != id }).fromSlice n (p.reply p.elems)
     exec (.watchComplete id) s = .next v)


/-- No interrupt of vector v writes the module's own memory: it is held, or goes to another node (R401). -/
def noVector (s : State) (v : Nat) : Prop := ∀ n r, (s.part n).remap[v]? = some r → r.v = false ∨ r.dnode ≠ (s.part n).node
/-- Every item that a packet serves fails with FABRIC (R392 to R394). -/
def failsFabric (s t : State) (p : Packet) : Prop :=
  ∀ o i j, s.op? p.op = some o → j ∈ p.elems.map (·.item) → o.items[j]? = some i → itemSt t p.op j = some (.failed codeFabric i.addr)

/-- A packet that the hub lets into its die is the first of its input for that bridge, has the least slack of those that wait there, and finds a free
buffer (R273, R280, R388). -/
def grantedIn (s : State) (p : Packet) (rx : List Packet) : Prop :=
  p ∈ rx ∧ rx.find? (fun q => q.bridgeIn = p.bridgeIn) = some p ∧ (∀ h ∈ s.hubHeads p.bridgeIn, p.slack ≤ h.2) ∧
  (s.router p.bridgeIn).load portLocal < 4

/-- R278, R280, R388, R391 to R395: a CXL link sends a queued request with the least slack, ties going round the inputs; one without a response for
100 µs fails its items with FABRIC, and a class-5 record is written. The answer to a request comes when its expander gives it (log 7), and enters its
slice's die by a bridge (log 13), the least slack of the hub's inputs first. A fabric port sends a packet with the least slack among the first of each input; what its node answers to an operation is a
free value (log 42) and has four times what slack it kept. A packet that waits 100 µs at a link that is down fails its items with FABRIC; links go
down and come back with a record; a retransmission is counted. Packets held for a node go on by the ports they have now, in their order, once no
earlier ones stand at another port; with no port enabled they fail. -/
def Obligations.LinkSteps : Prop :=
  (∀ n s l, s.cxl[n]? = some l →
     (l.q ≠ [] → (∀ y ∈ l.q, y.input < 13 ∧ y.pkt.slack ≤ 4095) → ∃ e, l.grant = some e) ∧
     (∀ e, l.grant = some e → e ∈ l.q ∧ (∀ y ∈ l.q, e.pkt.slack ≤ y.pkt.slack) ∧
       (∀ y ∈ l.q, y.input < 13 → y.pkt.slack = e.pkt.slack → (e.input + 12 - l.last % 13) % 13 ≤ (y.input + 12 - l.last % 13) % 13) ∧
       (l.sent = [] → s.hubReady n l.rx = none → let l' : CxlLink := { l with q := l.q.erase e, last := e.input, sent := l.sent ++ [(e.pkt, s.now)] }
         let v : State := { s with draws := s.draws + 1, cxl := s.cxl.set n l' }
         exec (.cxlSend n) s = .next (if e.pkt.late then v.markLate e.pkt.op else v))) ∧
     (l.q = [] → l.sent ≠ [] → s.hubReady n l.rx = none → ∃ y ∈ l.sent, exec (.cxlSend n) s =
       .next { s with draws := s.draws + 1, cxl := s.cxl.set n { l with sent := l.sent.erase y, rx := l.rx ++ [{ y.1.lineBack with at_ := s.halfNs }] } }) ∧
     (∀ p, s.hubReady n l.rx = some p → s.cxl.length ≤ 4 → s.ports.length ≤ 16 → grantedIn s p l.rx ∧ (l.q = [] → l.sent = [] →
       exec (.cxlSend n) s = .next (({ s with draws := s.draws + 1, cxl := s.cxl.set n { l with rx := l.rx.erase p } } : State).enterDie n p))) ∧
     (∀ p t, l.sent.find? (fun y => y.2 + 100000 ≤ s.now) = some (p, t) → ∃ u, exec (.cxlResponseTimeout n) s = .next u ∧
       (u.cxl[n]?).map (·.failed) = some (l.failed + 1) ∧ (u.cxl[n]?).map (·.sent) = some (l.sent.erase (p, t)) ∧
       failsFabric s u p ∧ u.mg.head = s.mg.head + 1 ∧ (noVector s 3 → u.mem = s.mem))) ∧
  (∀ n s x, s.ports[n]? = some x →
     (∀ e, x.grant = some e → e ∈ x.q ∧ (∀ i y, i < 13 → x.q.find? (fun y => y.input = i) = some y → e.pkt.slack ≤ y.pkt.slack) ∧
       (x.up = true → s.rxReady n x = none → ∃ u r, exec (.fabricEgressGrant n) s = .next u ∧ u.mem = s.mem ∧
         u.replies = s.replies ++ [r] ∧ r.node = e.pkt.dnode ∧ r.addr = e.pkt.la ∧
         (e.pkt.leg = .out → r.status = e.pkt.status ∧ u.ports[n]? = some { x with q := x.q.erase e, last := e.input }) ∧
         (e.pkt.leg ≠ .out → ∃ o f, f ≤ e.pkt.slack ∧ o = { e.pkt.reply (e.pkt.elems.map (remoteElem s.draws)) with
             slack := 4 * f, late := e.pkt.late || f = 0, at_ := s.halfNs } ∧
           u.ports[n]? = some { x with q := x.q.erase e, last := e.input, rx := x.rx ++ [o] }))) ∧
     (∀ p, s.rxReady n x = some p → s.cxl.length ≤ 4 → s.ports.length ≤ 16 → grantedIn s p x.rx ∧ (x.up = false ∨ x.q = [] →
       exec (.fabricEgressGrant n) s = .next (({ s with draws := s.draws + 1, ports := s.ports.set n { x with rx := x.rx.erase p } } : State).enterDie (4 + n) p))) ∧
     (∀ y, x.up = false → x.q.find? (fun y => y.since + 100000 ≤ s.now) = some y → ∃ u, exec (.fabricPortTimeout n) s = .next u ∧
       (u.ports[n]?).map (·.q) = some (x.q.erase y) ∧ (y.pkt.leg ≠ .out → failsFabric s u y.pkt) ∧ u.mem = s.mem) ∧
     (x.up = true → ∃ u, exec (.fabricLinkDown n) s = .next u ∧ (u.ports[n]?).map (·.up) = some false ∧ u.mg.head = s.mg.head + 1 ∧
       (noVector s 3 → u.mem = s.mem)) ∧
     (x.up = false → ∃ u, exec (.fabricLinkReturn n) s = .next u ∧ (u.ports[n]?).map (·.up) = some true ∧ u.mg.head = s.mg.head + 1 ∧
       (noVector s 3 → u.mem = s.mem)) ∧
     (∃ u, exec (.flitRetransmit n) s = .next u ∧ (u.ports[n]?).map (·.retx) = some (x.retx + 1) ∧ u.g = s.g ∧
       (noVector s 3 → u.mem = s.mem))) ∧
  (∀ node s, ∃ t, exec (.portSwitchRelease node) s = .next t ∧ t.mem = s.mem ∧ t.spad = s.spad ∧ t.g = s.g ∧
     t.ports.length = s.ports.length ∧ ∀ h x, h < 16 → s.ports[h]? = some x →
       (s.portBusy node h = true → (t.ports[h]?).map (·.held) = some x.held) ∧
       (s.portBusy node h = false → (t.ports[h]?).map (·.held) = some (x.held.filter fun e => !(e.to node h)) ∧
         (∀ n y, s.portFrom h = some n → s.ports[n]? = some y → (t.ports[n]?).map (·.q.filter fun e => e.to node h) =
           some ((y.q.filter fun e => e.to node h) ++ (x.held.filter fun e => e.to node h).map fun e => { e with since := s.now })) ∧
         (s.portFrom h = none → ∀ e ∈ x.held, e.to node h = true → e.pkt.leg ≠ .out → failsFabric s t e.pkt)))


/-! ## Queues, packets and the dispatcher -/

/-- A gang as the dispatcher starts it (R19 to R26, R73, R148, R350, R352). -/
structure Starts (l : Launch) (d : Cohort) (f2 : Nat) (x : Spot) (g : Gang) : Prop where
  place : g.cohort = d.id ∧ g.f2 = f2 ∧ g.core = x.core % 2 ∧ g.ox = x.ox ∧ g.oy = x.oy ∧ g.kn = l.kern ∧ (g.st = .active ∨ g.st = .pending)
  sregs : g.s.length = 64 ∧ ∀ i, i < 64 → (g.s.getD i 0).toNat =
    if 32 ≤ i ∧ i < 48 then (l.args.getD (i - 32) 0).toNat
    else (if i = 31 then 256 * d.cb
      else if i = 48 then let w (n : Nat) : Nat := ((List.range n).map l.kern.width).sum; f2 * 2 ^ w 2 + d.c * 2 ^ w 3 + l.partv * 2 ^ w 5
      else if i = 49 then l.stamp.toNat
      else if i = 50 then 256 * (d.cb + 256 + l.kern.stackBytes)
      else if i = 51 then l.kern.scr
      else if i = 62 then 256 * (d.cb + 256 + l.kern.stackBytes) + 256 * l.kern.scr else 0) % 2 ^ 64
  lanes : g.lanes.length = 2 ^ l.kern.width 0 * 2 ^ l.kern.width 1 ∧ ∀ y ∈ g.lanes, y.v = List.replicate l.kern.regs 0 ∧ y.p = 1 ∧
    y.o = List.replicate 8 0 ∧ y.oh = List.replicate 8 0 ∧ y.l = List.replicate 8 0 ∧ y.exited = false
  slots : g.s0.pc = l.kern.entry ∧ g.s0.mask = 2 ^ (2 ^ l.kern.width 0 * 2 ^ l.kern.width 1) - 1 ∧ g.s0.live = true ∧ g.s0.join = none ∧
    g.s0.rep.nrep = 0 ∧ g.s1.live = false ∧ g.mode = false ∧ g.stackd = 0 ∧ g.regpc = l.kern.entry ∧ g.regcnt = 0
  rest : g.m = List.replicate 8 0 ∧ g.k = List.replicate 8 0 ∧ g.prom = List.replicate 256 .free ∧ g.pend = [] ∧ g.fx = [] ∧
    g.chk = l.chk ∧ g.slackdef = l.kern.slack ∧ g.late = 0 ∧ g.issues = 0

/-- R19, R24, R204, R342 to R347, R349 to R353, R359, R361, R384: a submission enters its queue under the next number or is refused with a status
record (which of several reasons: log 20); the oldest packet starts once its prerequisites are met and nothing before it holds it; one whose
work is done leaves its queue and counts its signal up. The acts of the dispatcher: a launch is over, a cohort leaves, a cluster is placed, its
allocation cleared and its gangs as they start, a cohort yields. A child launch starts, with CHK 0 (log 23), or fails its item. The model's choices:
that the image of a cohort that yields has its place at the first free place of the shadow band (log 24), and that the dispatcher of a halted
partition only forgets what is over (log 25). -/
def Obligations.QueueSteps : Prop :=
  (∀ n q s, s.mg.status = 2 → (s.part n).en = true → q < 16 → let x := s.queue n q
     (∀ off bytes, let p : Pkt := { seq := x.nextSeq, words := packetWords bytes, started := false, work := false, done := false }
       let out := exec (.submission n q off bytes) s
       (256 ≤ x.pkts.length → out = .next (s.statusRecord n q x.nextSeq 1 0)) ∧
       (x.pkts.length < 256 → (off ≠ 0 ∨ bytes.length ≠ 64) → out = .next (s.statusRecord n q x.nextSeq 2 0)) ∧
       (x.pkts.length < 256 → off = 0 → bytes.length = 64 →
         (∀ d, p.bad = some d → out = .next (s.statusRecord n q x.nextSeq 2 d)) ∧
         (p.bad = none → p.pasid ∈ (s.part n).revoked → out = .next (s.statusRecord n q x.nextSeq 3 0)) ∧
         (p.bad = none → p.pasid ∉ (s.part n).revoked →
           out = .next (s.setQueue n q { x with pkts := x.pkts ++ [p], nextSeq := (x.nextSeq + 1) % 2 ^ 32 })))) ∧
     (∀ p, (s.part n).halted = false → (s.part n).halting = false → x.pkts.find? (fun p => !p.started) = some p →
       s.prereqs n p = true → (∀ y ∈ x.pkts, y.started = true → next32 y.seq = p.seq → p.ovl = true ∧ y.type ≠ 4) →
       exec (.packetStart n q) s =
         .next (s.setQueue n q { x with pkts := x.pkts.map fun y => if y.seq = p.seq then { y with started := true } else y })) ∧
     (∀ p, x.pkts.find? (s.pktDone n q) = some p → n < s.parts.length → q < (s.part n).queues.length → ∃ u,
       exec (.packetComplete n q) s = .next (if p.dv then u.countSignal n p.dsig 1 else u) ∧
       (u.queue n q).pkts = (x.pkts.filter fun y => y.seq != p.seq) ∧ (noVector s 0 → u.mem = s.mem) ∧ u.spad = s.spad ∧ u.g = s.g)) ∧
  (∀ n s,
     (∀ l, s.dispatchAct n = .over l → ∃ t, exec (.dispatchConsider n) s = .next t ∧ t.mem = s.mem ∧ t.spad = s.spad ∧ t.cohorts = s.cohorts ∧
       (l.queue = none → ∀ x ∈ t.launches, x.id ≠ l.id) ∧ (l.queue ≠ none → ∀ x ∈ t.launches, x.id = l.id → x.done = true) ∧
       ∀ x ∈ s.launches, x.id ≠ l.id → x ∈ t.launches) ∧
     (∀ c, s.dispatchAct n = .reap c → ∃ t, exec (.dispatchConsider n) s = .next t ∧ t.mem = s.mem ∧ t.spad = s.spad ∧
       (∀ d ∈ t.cohorts, d.id ≠ c.id) ∧ (∀ o ∈ t.ops, o.cohort ≠ c.id) ∧ (∀ g ∈ t.gangs, g.cohort = c.id → g = .idle) ∧
       (∀ d ∈ s.cohorts, d.id ≠ c.id → d ∈ t.cohorts) ∧ ∀ g ∈ s.gangs, g.cohort ≠ c.id → g ∈ t.gangs) ∧
     (∀ l p xs, s.dispatchAct n = .place l p xs → ∃ t, exec (.dispatchConsider n) s = .next t ∧ t.mem = s.mem ∧
       (∀ x ∈ t.launches, x.id = l.id → x.nextCluster = l.nextCluster + 1) ∧
       ∀ j base spots, xs[j]? = some (base, spots) → ∃ d ∈ t.cohorts, d.id = s.nextId + j ∧ d.launch = l.id ∧
         d.c = j + 2 ^ l.kern.width 3 * l.nextCluster ∧ d.pair = p + j ∧ d.cb = base ∧ d.pb = base ∧ d.st = .resident ∧
         d.cs = 256 + l.kern.stackBytes + l.kern.scr ∧ d.chans = l.kern.chans.map (fun _ => .zero) ∧
         (∀ f2 x, spots[f2]? = some x → ∃ g ∈ t.others, Starts l d f2 x g) ∧
         ∀ core, core / 2 = p + j →
           (l.argblock = [] → l.kern.data = [] → l.kern.bars = [] → ∀ a, base ≤ offOf a → offOf a < base + d.cs → (t.pad core).read a = 0) ∧
           (s.spadOk → l.kern.bars = [] → (t.pad core).readN (256 * base) (min 4096 l.argblock.length) = l.argblock.take 4096 ∧
             (t.pad core).readN (256 * (base + 256 + l.kern.stackBytes)) (min (256 * l.kern.scr) l.kern.data.length) =
               l.kern.data.take (256 * l.kern.scr))) ∧
     (∀ c d, s.dispatchAct n = .yields c d → exec (.dispatchConsider n) s = .next (s.yieldTo n c d) ∧
       (∀ l a, s.clusterOf d = [d] → s.cohort d.id = d → d.saveReq = false → d.st ≠ .saved → c.id ≠ d.id → d ∈ s.cohorts →
         s.launch? d.launch = some l →
         shadowPlace (s.part n).shadow (s.part n).shlen (s.shadowUsed n) (s.imageRoom d l) = some a →
         ∃ t, exec (.dispatchConsider n) s = .next t ∧ (t.cohort d.id).saveReq = true ∧ (t.cohort d.id).image = a ∧
           (t.cohort d.id).yieldFor = some c.id ∧ (t.cohort d.id).st = d.st ∧ t.mem = s.mem ∧ t.spad = s.spad ∧ t.gangs = s.gangs)) ∧
     ((s.part n).halted = true → (∀ l, s.dispatchAct n ≠ .over l) → (∀ c, s.dispatchAct n ≠ .reap c) →
       exec (.dispatchConsider n) s = .next s) ∧
     (∀ c rest, (s.part n).childq = c :: rest → s.childReady n = true →
       let v := s.setPart n { s.part n with childq := rest }
       let r := v.readLaunch n c.pasid c.addr false none 0 (v.childPrio c) (some (c.cohort, c.f2, c.op))
       let w := v.readTouch v n c.pasid c.addr
       (∀ l, r = .ok l → exec (.childStart n) s = .next (((w (some l.argblock.length)).addLaunch l).childItem c .done)) ∧
       (∀ x d, r = .error (.refused x d) → exec (.childStart n) s = .next ((w none).childItem c (.failed codeRefused c.addr))) ∧
       (∀ x, r = .error (.unread x) → exec (.childStart n) s = .next ((w none).childItem c (.failed x c.addr)))))


/-- R24, R346 to R348, R408, R414, R415, R419 to R421: a launch gets a stamp that no launch of its partition had; what each type of
packet does when its own step is taken, or how it is refused (RECORD_FAULT has detail 0: log 20; a copy whose records do not agree: log 19). An
installed object is published, and M2 is extended by REVID and the object's digest; a query writes its bytes, or is refused, as one whose
QKIND is not 1 to 3 is. What the hub reads for itself fails with FABRIC where a CXL link stays silent, which counts the link (R392; when: log 7). -/
def Obligations.PacketSteps : Prop :=
  ∀ n q s p,
    (∀ pasid a chk qq seq prio par l, s.readLaunch n pasid a chk qq seq prio par = .ok l → (s.part n).stamps.length < 2 ^ 64 →
      l.stamp.toNat ∉ (s.part n).stamps ∧ l.stamp.toNat ∈ ((s.addLaunch l).part n).stamps ∧ l.part = n) ∧
    (∀ pasid a len, let u := s.hubTouch s n pasid a len
      u.spad = s.spad ∧ u.g = s.g ∧ u.ops = s.ops ∧ u.locks = s.locks ∧ (noVector s 3 → u.mem = s.mem) ∧
      (s.silentLine n pasid a len = none → s.hubGet n pasid a len = s.readVirt n pasid a len) ∧
      ∀ la, s.silentLine n pasid a len = some la → s.hubGet n pasid a len = .error codeFabric ∧
        ∀ l, s.cxl[cxlLinkOf la]? = some l → (u.cxl[cxlLinkOf la]?).map (·.failed) = some (l.failed + 1)) ∧
    (s.atWork n q 1 = some p →
      let r := s.readLaunch n p.pasid p.body0 p.chk (some q) p.seq (s.queue n q).prio none; let w := s.readTouch s n p.pasid p.body0
      (∀ l, r = .ok l → exec (.launchPacket n q) s = .next (((w (some l.argblock.length)).addLaunch l).worked n q p.seq false)) ∧
      (∀ c d, r = .error (.refused c d) → exec (.launchPacket n q) s = .next ((w none).refuse n q p.seq c d)) ∧
      (∀ c, r = .error (.unread c) → exec (.launchPacket n q) s = .next ((w none).refuse n q p.seq 4 0))) ∧
    (s.atWork n q 2 = some p → ∀ bs, s.hubGet n p.pasid p.body0 64 = .ok bs →
      let t := Tens.ofBytes (bs.take 32); let u := Tens.ofBytes (bs.drop 32)
      t.valid = true → u.valid = true → t.extx = u.extx → t.exty = u.exty → t.extd = u.extd → t.fmt = u.fmt → t.eb = u.eb →
      t.planes = u.planes → ∃ v o, exec (.copyPacket n q) s = .next v ∧ v.ops = s.ops ++ [o] ∧ v.nextOp = s.nextOp + 1 ∧
        o.id = s.nextOp ∧ o.eng = 1 ∧ o.part = n ∧ o.pasid = p.pasid ∧ o.rec1 = bs.take 32 ∧ o.rec2 = bs.drop 32 ∧
        v.locks = s.locks ∧ (noVector s 3 → v.mem = s.mem) ∧ v.spad = s.spad) ∧
    (s.atWork n q 2 = some p → ∀ c, s.hubGet n p.pasid p.body0 64 = .error c →
      exec (.copyPacket n q) s = .next ((s.hubTouch s n p.pasid p.body0 64).refuse n q p.seq 4 0)) ∧
    (s.atWork n q 2 = some p → ∀ bs, s.hubGet n p.pasid p.body0 64 = .ok bs →
      let t := Tens.ofBytes (bs.take 32); let u := Tens.ofBytes (bs.drop 32)
      (t.valid = false ∨ u.valid = false ∨ t.extx ≠ u.extx ∨ t.exty ≠ u.exty ∨ t.extd ≠ u.extd ∨ t.fmt ≠ u.fmt) →
      exec (.copyPacket n q) s = .next ((s.hubTouch s n p.pasid p.body0 64).refuse n q p.seq 5 0)) ∧
    (s.atWork n q 3 = some p → exec (.signalPacket n q) s =
      .next ((s.countSignal n (p.body0 % 2 ^ 16) p.body1).worked n q p.seq true)) ∧
    (s.atWork n q 4 = some p →
      (p.body1 % 2 ^ 32 = 0 → exec (.removeHandle n q) s = .next ((s.unpublish n p.body0).worked n q p.seq true)) ∧
      (p.body1 % 2 ^ 32 ≠ 0 → ∀ o, s.hubGet n p.pasid p.body0 (p.body1 % 2 ^ 32) = .ok o →
        (∀ c d, s.installRefusal n o = some (c, d) → exec (.installPacket n q) s =
          .next ((s.hubTouch s n p.pasid p.body0 (p.body1 % 2 ^ 32)).refuse n q p.seq c d)) ∧
        (s.installRefusal n o = none → n < s.parts.length → ∃ t, exec (.installPacket n q) s = .next t ∧
          CodeObj.ofBytes s.mg s.nextId o ∈ (t.part n).objs ∧ (∀ m, s.mg.meas[2]? = some m →
            t.mg.meas[2]? = some (sha256 (m ++ (revid s.mg ++ sha256 o))))))) ∧
    (s.atWork n q 5 = some p →
      (p.body0 % 256 = 1 → ∀ x, s.hubGet n p.pasid (p.body0 / 256 * 256) 32 = .ok x →
        exec (.queryQuote n q) s = .next ((s.hubTouch s n p.pasid (p.body0 / 256 * 256) 32).answerQuery n q p (s.quote x))) ∧
      (p.body0 % 256 = 2 → exec (.queryIdentity n q) s = .next (s.answerQuery n q p (certBytes s.mg 1 Config.identityModulus))) ∧
      (p.body0 % 256 = 3 → exec (.queryRevision n q) s = .next (s.answerQuery n q p (revisionRecord s.mg))) ∧
      (p.body0 % 256 = 0 ∨ 3 < p.body0 % 256 → exec (.queryQuote n q) s = .next (s.refuse n q p.seq 5 48)))

/-- A gang of a kernel has the registers that the kernel gives it (R19 to R23, R148). -/
structure Shaped (k : Kern) (g : Gang) : Prop where
  kernel : g.kn = k
  files : g.s.length = 64 ∧ g.m.length = 8 ∧ g.k.length = 8
  lanes : g.lanes.length = g.size ∧ ∀ y ∈ g.lanes, y.v.length = k.regs ∧ y.o.length = 8 ∧ y.oh.length = 8 ∧ y.l.length = 8

/-- A cohort's image has its room, and what goes into it has the sizes that the spec gives (R304, R372, R374). -/
structure Sized (s : State) (c : Cohort) (l : Launch) : Prop where
  room : (imageParts l.kern (s.savedGangs c.id).length c.cs (c.recs.map List.length).sum).2.2.2.2.2 ≤ c.imageLen
  memories : s.memOk ∧ s.spadOk
  gangs : ∀ g ∈ s.savedGangs c.id, Shaped l.kern g
  tiles : ∀ n, ((s.pair c.pair).acc.getD n []).wf = true ∧ ((s.pair c.pair).nan.getD n []).wf = true ∧
    (∀ x ∈ (s.pair c.pair).acc.getD n [], x.1 < 655360) ∧ ∀ x ∈ (s.pair c.pair).nan.getD n [], x.1 < 2048
  blocks : (∀ i, ((s.pair c.pair).bbuf.getD i []).wf = true ∧ ((s.pair c.pair).tags.getD i []).length ≤ 128 ∧
    ∀ x ∈ (s.pair c.pair).bbuf.getD i [], x.1 < 128 * blockLen) ∧ (s.pair c.pair).sct.wf = true ∧ ∀ x ∈ (s.pair c.pair).sct, x.1 < 65536

/-- The registers of a gang in its record, from offset a of memory m on (R375). -/
def recordHolds (m : Memory) (a : Nat) (g : Gang) : Prop :=
  (∀ j, j < 64 → m.readN (a + 8 * j) 8 = leBytes 8 (g.s.getD j 0).toNat) ∧ (∀ j, j < 8 → m.readN (a + 512 + 32 * j) 32 = leBytes 32 (g.m.getD j 0).toNat) ∧
  (∀ j, j < 8 → m.readN (a + 768 + 8 * j) 8 = leBytes 8 (g.k.getD j 0).toNat) ∧ m.readN (a + 888) 8 = leBytes 8 g.f2 ∧
  m.readN (a + 920) 4 = leBytes 4 g.s0.pc ∧ m.readN (a + 936) 4 = leBytes 4 g.s1.pc ∧ m.readN (a + 952) 4 = leBytes 4 g.regpc ∧
  m.readN (a + 956) 4 = leBytes 4 g.regcnt ∧
  ∀ k, k < g.size → let b := a + 17664 + k * (4 * g.kn.regs + 144); let e := b + 4 * g.kn.regs
    (∀ r, r < g.kn.regs → m.readN (b + 4 * r) 4 = leBytes 4 ((g.lane k).v.getD r 0).toNat) ∧ m.readN e 2 = leBytes 2 (g.lane k).p.toNat ∧
    m.readN (e + 8) 8 = leBytes 8 (g.lane k).z.toNat ∧ ∀ j, j < 8 → m.readN (e + 16 + 4 * j) 4 = leBytes 4 ((g.lane k).o.getD j 0).toNat ∧
      m.readN (e + 48 + 4 * j) 4 = leBytes 4 ((g.lane k).oh.getD j 0).toNat ∧ m.readN (e + 80 + 8 * j) 8 = leBytes 8 ((g.lane k).l.getD j 0).toNat

/-- Cohort c stands saved in u, its pair free, and u's memory holds its image (R371 to R375; poisoned words go poisoned into it: log 31). -/
structure Saved (s u : State) (c : Cohort) (l : Launch) : Prop where
  cohort : ∃ d ∈ u.cohorts, d.id = c.id ∧ d.st = .saved ∧ d.saveReq = false ∧ d.image = c.image ∧ d.imageLen = c.imageLen ∧ d.toFault = c.toFault
  gone : (∀ g ∈ u.gangs, g.cohort = c.id → g = .idle) ∧ (∀ g ∈ s.gangs, g.cohort ≠ c.id → g ∈ u.gangs) ∧
    ∀ d ∈ s.cohorts, d.id ≠ c.id → d ∈ u.cohorts
  freed : (u.pair c.pair).holder ≠ some c.id
  header : let r := u.mem.readN; let a := c.image; let n := (s.savedGangs c.id).length
    let (so, mo, ro, co, bo, _) := imageParts l.kern n c.cs (c.recs.map List.length).sum
    r a 4 = leBytes 4 1 ∧ r (a + 4) 4 = leBytes 4 n ∧ r (a + 8) 8 = leBytes 8 l.stamp.toNat ∧ r (a + 16) 4 = leBytes 4 c.c ∧
    r (a + 20) 4 = leBytes 4 c.cb ∧ r (a + 24) 4 = leBytes 4 c.cs ∧ r (a + 32) 8 = leBytes 8 s.now ∧ r (a + 40) 4 = leBytes 4 c.recs.length ∧
    r (a + 48) 8 = leBytes 8 256 ∧ r (a + 56) 8 = leBytes 8 so ∧ r (a + 64) 8 = leBytes 8 (if l.kern.mat then mo else 0) ∧
    r (a + 72) 8 = leBytes 8 ro ∧ r (a + 80) 8 = leBytes 8 co ∧ r (a + 120) 8 = leBytes 8 bo
  records : ∀ i g, (s.savedGangs c.id)[i]? = some g → recordHolds u.mem (c.image + 256 + i * l.kern.gangLen) g
  parts : let (so, mo, ro, co, bo, _) := imageParts l.kern (s.savedGangs c.id).length c.cs (c.recs.map List.length).sum
    (∀ i lane off, i < 2 → lane < 256 → off < c.cs → u.mem.read (c.image + so + 256 * c.cs * i + lane * c.cs + off) =
      (s.pad (coreOf c.pair i)).read (linOf lane (c.pb + off))) ∧
    (l.kern.mat = true → let m := c.image + mo; let p := s.pair c.pair
      (∀ n b, n < 4 → b < 655360 → u.mem.read (m + 655360 * n + b) = (p.acc.getD n []).read b) ∧
      (∀ n b, n < 4 → b < 2048 → u.mem.read (m + 4 * 655360 + 2048 * n + b) = (p.nan.getD n []).read b) ∧
      (∀ i b, i < 2 → b < 128 * blockLen → u.mem.read (m + 4 * 655360 + 4 * 2048 + i * (128 * blockLen + 128) + b) = (p.bbuf.getD i []).read b) ∧
      (∀ b, b < 65536 → u.mem.read (m + 4 * 655360 + 4 * 2048 + 2 * (128 * blockLen + 128) + b) = p.sct.read b)) ∧
    u.mem.readN (c.image + ro) c.recs.flatten.length = c.recs.flatten ∧
    (∀ i x n, i < 16 → l.kern.chans[i]? = some x → c.chans[i]? = some n → x.cons = c.c % 2 ^ l.kern.width 3 →
      u.mem.readN (c.image + co + 16 * i) 16 = leBytes 4 n.sent ++ leBytes 4 n.landed ++ leBytes 4 n.recv ++ leBytes 4 n.rel) ∧
    (∀ i j, i < 8 → j < 256 → u.mem.read (c.image + bo + 256 * i + j) = BitVec.ofNat 8 ((c.bc.getD i idPerm).getD j j)) ∧
    ∀ p ∈ s.spoison, p.1 / 2 = c.pair → c.pb ≤ offOf p.2 → offOf p.2 < c.pb + c.cs →
      (c.image + so + 256 * c.cs * (p.1 % 2) + laneOf p.2 * c.cs + (offOf p.2 - c.pb)) / 256 ∈ u.poison
  around : u.spad = s.spad ∧ u.ops = s.ops ∧ u.locks = s.locks ∧
    ∀ b, (b < c.image ∨ c.image + c.imageLen ≤ b) → u.mem.read b = s.mem.read b

/-- The gang of record i of a cohort's image, at offset a of it, as it returns (R375, R376, R378). -/
structure Returned (s : State) (c : Cohort) (k : Kern) (a : Nat) (h : Hid) (g : Gang) : Prop where
  place : g.cohort = c.id ∧ g.f2 = h.f2 ∧ g.core = h.core ∧ g.ox = h.ox ∧ g.oy = h.oy ∧ g.kn = k ∧ (g.st = .active ∨ g.st = .pending)
  files : (∀ j, j < 64 → g.s.getD j 0 = BitVec.ofNat 64 (s.img c (a + 8 * j) 8)) ∧
    (∀ j, j < 8 → g.m.getD j 0 = BitVec.ofNat 256 (s.img c (a + 512 + 32 * j) 32)) ∧
    ∀ j, j < 8 → g.k.getD j 0 = BitVec.ofNat 64 (s.img c (a + 768 + 8 * j) 8)
  lanes : g.lanes.length = 2 ^ k.width 0 * 2 ^ k.width 1 ∧ ∀ n, n < g.lanes.length →
    let b := a + 17664 + n * (4 * k.regs + 144); let e := b + 4 * k.regs
    (∀ r, r < k.regs → (g.lane n).v.getD r 0 = BitVec.ofNat 32 (s.img c (b + 4 * r) 4)) ∧ (g.lane n).p = BitVec.ofNat 16 (s.img c e 2) ||| 1 ∧
    (g.lane n).z = BitVec.ofNat 64 (s.img c (e + 8) 8) ∧ ∀ j, j < 8 → (g.lane n).o.getD j 0 = BitVec.ofNat 32 (s.img c (e + 16 + 4 * j) 4) ∧
      (g.lane n).oh.getD j 0 = BitVec.ofNat 32 (s.img c (e + 48 + 4 * j) 4) ∧ (g.lane n).l.getD j 0 = BitVec.ofNat 64 (s.img c (e + 80 + 8 * j) 8)
  slots : ∀ x n, (n = 1 ∧ x = g.s0) ∨ (n = 2 ∧ x = g.s1) → x.live = true → x.pc = s.img c (a + 904 + 16 * n) 4 ∧
    ∀ m, x.mask.testBit m = true ↔ m < g.lanes.length ∧ s.img c (a + 17664 + m * (4 * k.regs + 144) + 4 * k.regs + 2) 1 % 4 = n
  region : g.regpc = s.img c (a + 952) 4 ∧ g.regcnt = s.img c (a + 956) 4 ∧ g.mode = (s.img c (a + 896) 4).testBit 16

/-- R366, R369, R371 to R376, R378, R384: a cohort is stopped, quiesces, and is reported faulted or saved: then its image stands in the shadow
band, its gangs are gone, and the dispatcher considers units, the one that it yielded for first. It returns to a pair on which it fits, its
scratchpad and its gangs' registers as the image holds them; an image that breaks its layout is refused and the cohort is faulted. -/
def Obligations.SaveSteps : Prop :=
  ∀ id s, let c := s.cohort id
    (s.stops c = true → c ∈ s.cohorts → c.id = id → ∃ t, exec (.preemptStop id) s = .next t ∧ (t.cohort id).st = .stopped ∧
      (∀ g ∈ t.gangs, g.cohort = id → g.st ≠ .active ∧ g.st ≠ .pending) ∧
      (∀ g ∈ s.gangs, g.cohort ≠ id → g ∈ t.gangs) ∧ t.mem = s.mem ∧ t.spad = s.spad ∧ t.ops = s.ops) ∧
    (s.quiesces c = true → let v := (s.opsOf id).foldl quiesceOp s
      exec (.quiesce id) s = .next (v.setCohort { v.cohort id with st := .quiesced }) ∧
      ((s.ops.map (·.id)).Nodup → ∀ o ∈ v.ops, o.cohort = id → o.eng ≠ 1 ∧ o.eng ≠ 2 ∧ o.opc ≠ 0xD3)) ∧
    (s.quiesces c = false → s.faultsNow c = true →
      exec (.quiesce id) s = .next ((s.setCohort { c with st := .faulted, quiescedAt := s.now }).faultEvent c)) ∧
    (s.saves c = true → ∀ l, s.launch? c.launch = some l → s.clusterOf c = [c] → Sized s c l → noVector s 0 →
      ∃ u owed, exec (.saveReport id) s = .next (State.considerUnits l.part unitBound (u.payOwed l owed)) ∧ Saved s u c l ∧
        (∀ d, owed = some d → c.yieldFor = some d.id ∧ d.st = .saved) ∧
        (∀ d ∈ u.cohorts, c.yieldFor = some d.id → d.st = .saved → ∃ e, owed = some e ∧ e.id = d.id)) ∧
    (∀ l p b, s.launch? c.launch = some l → s.clusterOf c = [c] → c.st = .saved → c.toFault = false → s.fitUnit l.part l.kern [c] = some (p, [b]) →
      (s.imageOk c l.kern = true → let q := p + c.c % 2 ^ l.kern.width 3; let here := c.hid.filter fun h => !h.gone
        ∃ t, exec (.restore id) s = .next t ∧ t.mem = s.mem ∧
          (∃ d ∈ t.cohorts, d.id = c.id ∧ d.st = .resident ∧ d.pair = q ∧ d.pb = b ∧ d.cb = s.img c 20 4 ∧ d.cs = l.kern.cs ∧ d.saveReq = false ∧
            ∀ i j, i < 8 → j < 256 → (d.bc.getD i []).getD j 0 = s.img c (s.img c 120 8 + 256 * i + j) 1) ∧
          (s.memOk → s.spadOk → ∀ i lane off, i < 2 → lane < 256 → off < l.kern.cs → (t.pad (coreOf q i)).read (linOf lane (b + off)) =
            s.mem.read (c.image + s.img c 56 8 + i * 256 * l.kern.cs + lane * l.kern.cs + off)) ∧
          ((∀ g ∈ s.gangs, g.cohort ≠ c.id) → (c.hid.map (·.f2)).Nodup → (∀ h ∈ c.hid, h.f2 < 32) → s.img c 4 4 = here.length →
            (∀ i h, here[i]? = some h → s.img c (s.img c 48 8 + i * l.kern.gangLen + 888) 8 = h.f2) →
            ∀ i h, here[i]? = some h → ∃ g ∈ t.gangs, Returned s c l.kern (s.img c 48 8 + i * l.kern.gangLen) h g)) ∧
      (s.imageOk c l.kern = false → noVector s 0 → ∃ t, exec (.restore id) s = .next t ∧ (t.cohort id).st = .saved ∧ (t.cohort id).toFault = true ∧
        t.mem = s.mem ∧ t.spad = s.spad ∧ t.gangs = s.gangs))

/-! ## What hosts do -/

/-- R366, R383, R397, R399, R403, R404: each command of the command block that is taken makes the block busy and has its effect, or is
refused with STATUS 3, as one with an unused argument that is not zero is; its write is acknowledged, but one to a busy block is refused (log 13).
One whose effects are complete ends with STATUS 2 and vector 2, REVOKE and ALLOW changing the PASID then; a SWAP, of an image in the shadow
band, saves every cohort, forgets the partition's mappings, keeps the outgoing context and loads the incoming one, or is refused (log 24, log 25);
an invalidation completes when no pin covers it. -/
def Obligations.CommandSteps : Prop :=
  (∀ n s, takesCmd s n →
     (∀ q seq c l, s.launchOf n q seq = some l →
       (∀ cs u, s.preempted l c = some cs → State.askSave n none cs s = some u →
         ∃ t, exec (.preempt n q seq c) s = .next t ∧ busyWith t u n 1 q seq c) ∧
       (∀ d, s.cohortOf l c = some d → d.st = .faulted → d.saveReq = false →
         ∃ t, exec (.resume n q seq c) s = .next t ∧ busyWith t (s.resumeHere d) n 2 q seq c) ∧
       (∀ d, s.cohortOf l c = some d → d.st = .saved → d.toFault = true →
         ∃ t, exec (.resume n q seq c) s = .next t ∧ busyWith t (s.setCohort { d with toFault := false, fault := none }) n 2 q seq c) ∧
       (∃ t, exec (.endLaunch n q seq) s = .next t ∧
         busyWith t { s with launches := s.launches.map fun x => if x.id = l.id then { x with ended := true } else x } n 3 q seq 0)) ∧
     (∀ q seq c, s.launchOf n q seq = none → ∃ t u v, exec (.preempt n q seq c) s = .next t ∧ refusedCmd t s n 1 q seq c ∧
       exec (.resume n q seq c) s = .next u ∧ refusedCmd u s n 2 q seq c ∧
       exec (.endLaunch n q seq) s = .next v ∧ refusedCmd v s n 3 q seq 0) ∧
     (∀ pasid first bytes, pasid < 2 ^ 20 → bytes < 2 ^ 48 → first < 2 ^ 57 → ∃ t, exec (.inval n pasid first bytes) s = .next t ∧
       busyWith t (s.setPart n { s.part n with inval := some (pasid, first, bytes) }) n 4 pasid first bytes) ∧
     (∀ pasid, pasid < 2 ^ 20 → ∃ t u, exec (.revoke n pasid) s = .next t ∧ busyWith t s n 5 pasid 0 0 ∧
       exec (.allow n pasid) s = .next u ∧ busyWith u s n 6 pasid 0 0) ∧
     (∀ q prio, q < 16 → prio < 8 → q < (s.part n).queues.length → ∃ t, exec (.qpri n q prio) s = .next t ∧
       (t.queue n q).prio = prio ∧ (∀ r, r ≠ q → t.queue n r = s.queue n r)) ∧
     (∃ t, exec (.halt n) s = .next t ∧ (t.part n).cmd.status = 1 ∧ ((s.part n).halted = false → (t.part n).halting = true)) ∧
     (∀ c a0 a1 a2, c < 2 ^ 64 → a0 < 2 ^ 64 → a1 < 2 ^ 64 → a2 < 2 ^ 64 →
       (c = 0 ∨ 9 < c ∨ (c ∈ [3, 7] ∧ a2 ≠ 0) ∨ (c ∈ [5, 6, 9] ∧ (a1 ≠ 0 ∨ a2 ≠ 0)) ∨ (c = 8 ∧ (a0 ≠ 0 ∨ a1 ≠ 0 ∨ a2 ≠ 0)) →
         ∃ t, exec (.controlAccessRefused n 0x20000 64 (some (commandBytes c a0 a1 a2))) s = .next (t.replied (s.hostAsker n 0x20000 true) 0 []) ∧
           refusedCmd t { s with draws := s.draws + 1 } n c a0 a1 a2) ∧
       (∀ i, commandStep n c a0 a1 a2 = some i → ∃ t, exec i { s with draws := s.draws + 1 } = .next t ∧
         exec (.controlAccessRefused n 0x20000 64 (some (commandBytes c a0 a1 a2))) s =
           .next (t.replied (s.hostAsker n 0x20000 true) 0 []))) ∧
     (∀ a, (((s.part n).halted = false ∨ a < (s.part n).shadow ∨ (s.part n).shadow + (s.part n).shlen ≤ a) →
         ∃ t, exec (.swap n a) s = .next t ∧ refusedCmd t s n 9 a 0 0) ∧
       ((s.part n).halted = true → (s.part n).shadow ≤ a → a < (s.part n).shadow + (s.part n).shlen →
         ∀ u, State.askSave n none (s.cohortsOfPart n) s = some u → (u.contextPlace n).isSome = true →
         ∃ t, exec (.swap n a) s = .next t ∧ busyWith t (u.setPart n { u.part n with
           swapTo := some a, swapOut := ((s.cohortsOfPart n).filter fun c => c.st != .saved).map (·.id) }) n 9 a 0 0))) ∧
  (∀ n s bytes, s.mg.status = 2 → (s.part n).en = true → (s.part n).cmd.status = 1 →
     exec (.controlAccessRefused n 0x20000 64 (some bytes)) s =
       .next (({ s with draws := s.draws + 1 } : State).replied (s.hostAsker n 0x20000 true) codeRefusedFormat [])) ∧
  (∀ n s, s.commandOver n = true → n < s.parts.length →
     ((s.part n).swapTo = none → ∃ u : State, exec (.commandDone n) s = .next (u.interrupt n 2) ∧ (u.part n).cmd.status = 2 ∧
       ((s.part n).cmd.cmd = 5 → ∀ x, x ∈ (u.part n).revoked ↔ x = (s.part n).cmd.a0 ∨ x ∈ (s.part n).revoked) ∧
       ((s.part n).cmd.cmd = 6 → ∀ x, x ∈ (u.part n).revoked ↔ x ≠ (s.part n).cmd.a0 ∧ x ∈ (s.part n).revoked) ∧
       ((s.part n).cmd.cmd = 8 → (u.part n).halted = true ∧ (u.part n).halting = false) ∧
       ((s.part n).cmd.cmd ≠ 5 → (s.part n).cmd.cmd ≠ 6 → (u.part n).revoked = (s.part n).revoked) ∧
       ((s.part n).cmd.cmd ≠ 8 → (u.part n).halted = (s.part n).halted) ∧ u.mem = s.mem ∧ u.cohorts = s.cohorts) ∧
     (∀ a, (s.part n).swapTo = some a →
       (∀ x, s.loadable n a = some x → ∃ u, exec (.commandDone n) s = .next u ∧ (u.part n).halted = false ∧
         (u.part n).queues = x.queues ∧ (u.part n).swapTo = none ∧ (∀ c ∈ x.cohorts, c ∈ u.cohorts) ∧ (∀ e ∈ u.tlb, e.part ≠ n) ∧
         (u.part n).cmd = (s.part n).cmd ∧ ∃ y ∈ (u.part n).contexts, y.2 = s.context n) ∧
       (s.loadable n a = none → ∃ u : State, ∃ e, exec (.commandDone n) s = .next (u.event n e) ∧ (u.part n).cmd.status = 3 ∧
         (u.part n).halted = (s.part n).halted ∧ u.cohorts = s.cohorts ∧ (∀ e ∈ u.tlb, e.part ≠ n) ∧
         ∃ y ∈ (u.part n).contexts, y.2 = s.context n))) ∧
  (∀ n s p a l, (s.part n).inval = some (p, a, l) → s.invalOver n = true →
     exec (.invalidationComplete n) s = .next ((s.setPart n { s.part n with inval := none }).forget n p a l) ∧
     ∀ u, exec (.invalidationComplete n) s = .next u → ∀ e ∈ u.tlb, e.covered n p a l = false)


/-- What out answers to q for an access of len bytes, a read or a write, at offset off of the control space of partition n (R342, R343, R398,
R401). The command block stands in CommandSteps. -/
def controlAnswers (v : State) (q : Asker) (n off len : Nat) (write : Option (List Byte)) (out : Host.Outcome State Fault Refusal) : Prop :=
  let refused := out = .next (v.replied q codeRefusedFormat [])
  let notify := off < 0x20000 ∧ off / 4096 % 2 = 0
  (write = none → (len ≠ 8 ∨ off % 8 ≠ 0 → refused) ∧ (len = 8 → off % 8 = 0 → out = .next (v.replied q 0 (v.controlRead n off)))) ∧
  (∀ bs, write = some bs →
    (notify → len = 64 ∨ (len = 8 ∧ off % 8 = 0) → ∃ t, exec (.submission n (off / 8192) (off % 4096) (exactly len bs)) v = .next t ∧
      out = .next (t.replied q 0 [])) ∧
    (¬(len = 64 ∧ (off = 0x20000 ∨ notify)) → (len ≠ 8 ∨ off % 8 ≠ 0 ∨ off / 4096 = 0x21 ∨ (off < 0x20000 ∧ off / 4096 % 2 = 1)) → refused) ∧
    (len = 8 → off % 8 = 0 → 0x22000 ≤ off → off < 0x22080 → ∃ t, exec (.interruptRemapWrite n ((off - 0x22000) / 16) (off / 8 % 2)
        (BitVec.ofNat 64 (leNat (exactly 8 bs)))) v = .next t ∧ out = .next (t.replied q 0 [])) ∧
    (len = 8 → off % 8 = 0 → 0x20000 ≤ off → off / 4096 ≠ 0x21 → (off < 0x22000 ∨ 0x22080 ≤ off) → out = .next (v.replied q 0 [])))

/-- R206, R211, R380 to R383, R393, R396 to R398, R401, R402: a memory request of a host is answered with its data, or with the reason why it
changed nothing; a reply asks for nothing; what translates has a 57-bit address, keeps its low 12 bits, and comes from the tables as they stand or
from a mapping that a lookup found and no invalidation removed (log 34); a poisoned entry of the stage-2 root fails what a walk reads through
it. A control access is answered to its asker, or refused where it breaks its rule; one that is a step of its own is answered to HNODE (log 13),
and what the fabric word does not settle is log 25. In boot mode each is
refused. A line that a CXL link does not bring fails the request with FABRIC, and the link is counted (when: log 7). A held interrupt is delivered once its vector is made valid, to DNODE:ADDR, in the module's own
memory where DNODE is the partition's node. -/
def Obligations.HostRequests : Prop :=
  ∀ s : State, let v : State := { s with draws := s.draws + 1 }
    (∀ r : HostReq, s.mg.status = 2 → r.part < 4 → (s.part r.part).en = true → let q := s.asker r; let out := exec (.hostMemoryRequest r) s
      (q.src = r.src ∧ q.own = (s.part r.part).node ∧ q.la = r.addr ∧ q.slack = r.slack ∧ q.late = (r.late || r.slack = 0)) ∧ (r.resp = true → out = .next v) ∧
      (r.resp = false →
        ((r.zero ≠ 0 ∨ 2 < r.space ∨ 4 < r.ord ∨ (r.space = 2 ∧ (r.src ≠ s.mg.hnode ∨ (s.part r.part).node ≠ s.mg.mnode)) ∨
            (r.space = 0 ∧ (2 ^ 20 ≤ r.pasid ∨ (r.pasid = 0 ∧ r.src ≠ s.mg.hnode)))) → out = .next (v.replied q codeRefusedFormat [])) ∧
        (r.zero = 0 → r.space = 0 → r.ord ≤ 4 → r.pasid < 2 ^ 20 → (r.pasid = 0 → r.src = s.mg.hnode) →
          (r.pasid ∈ (s.part r.part).revoked → out = .next (v.replied q codeRefusedPasid [])) ∧
          (r.pasid ∉ (s.part r.part).revoked → let h := v.atHome q r; let silent := v.silentLine r.part r.pasid r.addr (reqBytes r)
            (h = { q with sdie := h.sdie, srt := h.srt }) ∧
            (∀ la more, v.landsAt r.part r.pasid r.addr 1 = la :: more → let home := (s.part r.part).home la
              h.sdie = home / 16 ∧ h.srt = sliceRouter (home % 16)) ∧
            (silent = none →
              (r.op = .read → ∀ bs, v.readVirt r.part r.pasid r.addr r.len = .ok bs → out = .next (v.replied h 0 bs)) ∧
              (r.op = .write → ∀ u, v.storeVirt r.part r.pasid r.addr (r.data.take r.len) = .ok u → out = .next (u.triggerAll.replied h 0 [])) ∧
              (∀ u bs, v.hostAccess r = .ok (u, bs) → out = .next (u.replied h 0 bs)) ∧
              (∀ c, v.hostAccess r = .error c → out = .next (v.replied h c []))) ∧
            (∀ la, silent = some la → out = .next ((v.linkFailed (cxlLinkOf la) la).replied h codeFabric [])))) ∧
        (r.zero = 0 → r.space = 1 → r.ord ≤ 4 →
          (r.op = .read → controlAnswers v q r.part r.addr r.len none out) ∧
          (r.op = .write → controlAnswers v q r.part r.addr r.len (some r.data) out) ∧
          (∀ aop, r.op = .atomic aop → out = .next (v.replied q codeRefusedFormat []))))) ∧
    (∀ n, s.mg.status ≠ 2 →
      let refused (off : Nat) (wr : Bool) : Host.Outcome State Fault Refusal := .next (v.replied (s.hostAsker n off wr) codeRefusedFormat [])
      (∀ q off bytes, exec (.submission n q off bytes) s = refused (8192 * q + off) true) ∧
      (∀ i word x, exec (.interruptRemapWrite n i word x) s = refused (0x22000 + 16 * i + 8 * word) true) ∧
      (∀ off len write, exec (.controlAccessRefused n off len write) s = refused off write.isSome) ∧
      (∀ a b c, exec (.preempt n a b c) s = refused 0x20000 true ∧ exec (.inval n a b c) s = refused 0x20000 true ∧ exec (.swap n a) s = refused 0x20000 true)) ∧
    (∀ n pasid va pg, s.walked n pasid va = .ok pg → va < 2 ^ 57 ∧ 12 ≤ pg.size ∧ pg.at_ va % 2 ^ 12 = va % 2 ^ 12) ∧
    (∀ n pasid va pg, s.translate n pasid va = .ok pg → s.walked n pasid va = .ok pg ∨
      ∃ e ∈ s.tlb, e.part = n ∧ e.pasid = pasid ∧ e.va ≤ va ∧ va < e.va + 2 ^ e.page.size ∧ pg = e.page) ∧
    (∀ n pasid va, va < 2 ^ 57 → s.linePoison ((s.part n).s2root + 8 * (va / 2 ^ 48)) 8 = true → pasid = 0 →
      s.walked n pasid va = .error codePoison) ∧
    (∀ n off len (write : Option (List Byte)), s.mg.status = 2 → (s.part n).en = true →
      controlAnswers v (s.hostAsker n off write.isSome) n off len write (exec (.controlAccessRefused n off len write) s)) ∧
    (∀ n i value r, s.mg.status = 2 → (s.part n).remap[i]? = some r → n < s.parts.length → ∃ t, exec (.interruptRemapWrite n i 0 value) s = .next t ∧
      let d := value.toNat / 2 ^ 16 % 2 ^ 12
      (∃ r', (t.part n).remap[i]? = some r' ∧ r'.v = value.getLsbD 0 ∧ r'.dnode = d ∧ r'.addr = r.addr ∧
        r'.pend = (!(value.getLsbD 0) && r.pend)) ∧
      ((value.getLsbD 0 && r.pend) = false → t.ports = s.ports ∧ t.mem = s.mem) ∧
      (value.getLsbD 0 = true → r.pend = true →
        (d ≠ (s.part n).node → ∃ u : State, t = u.writeOut n d r.addr 2 (vectorBytes i) ∧ u.ports = s.ports ∧ u.mem = s.mem) ∧
        (d = (s.part n).node → t.ports = s.ports ∧ ∀ b, t.mem.read b =
          if (inHbm r.addr || inCxl r.addr) = true then (s.mem.writeN r.addr (vectorBytes i)).read b else s.mem.read b)))

/-! ## Management -/

/-- Bytes from a on, one at least, lie in the HBM of the dies of a mask (R207, R404, R424). -/
def liesIn (dies a n : Nat) : Prop := ∀ b, a ≤ b → b < a + max 1 n → b < 0x9000000000 ∧ dies.testBit (b / 0x2400000000) = true

/-- The setup record of partition n extends M1, and no other register (R420). -/
def measured (s t : State) (n : Nat) : Prop :=
  (∀ m, s.mg.meas[1]? = some m → t.mg.meas[1]? = some (sha256 (m ++ Config.setupDigest n (t.part n).setup))) ∧
    ∀ i, i ≠ 1 → t.mg.meas[i]? = s.mg.meas[i]?

/-- What a write of v at offset off leaves of the block of partition n, and the words out of range, which are refused (R403, R424). -/
def setupGives (s : State) (n off v : Nat) (out : Host.Outcome State Fault Refusal) (q : Asker) : Prop :=
  let p := s.part n
  let refused := out = .next (s.replied q codeRefusedFormat [])
  let set (f : Part) : Prop := ∃ t, out = .next (t.replied q 0 []) ∧ t.part n = f ∧ measured s t n ∧ ∀ i, i ≠ n → t.part i = s.part i
  let other (i : Nat) : Prop := i ≠ n ∧ i < s.parts.length ∧ (s.part i).en = true
  (off = 0 → let dies := v % 16; let node := v / 16 % 2 ^ 12; let en := v.testBit 16
    let bad := dies ∉ [1, 2, 4, 8, 3, 12, 15] ∨ node = s.mg.mnode ∨ (∃ i, other i ∧ (s.part i).node = node) ∨
      (en = true ∧ ∃ i, other i ∧ (s.part i).dies &&& dies ≠ 0)
    (bad → refused) ∧
    (¬bad → (en = false ∨ p.en = true → set { p with dies := dies, node := node, en := en }) ∧
      (en = true → p.en = false → ∃ f, set f ∧ f.dies = dies ∧ f.node = node ∧ f.en = true ∧ f.queues = Part.init.queues ∧ f.sigbase = p.sigbase ∧
        f.s2root = p.s2root ∧ f.pasidt = p.pasidt ∧ f.shadow = p.shadow ∧ f.shlen = p.shlen ∧ f.heap = p.heap ∧ f.natok = p.natok ∧
        f.fmin = p.fmin ∧ f.fmax = p.fmax ∧ f.eqen = p.eqen))) ∧
  (off = 8 → set { p with sigbase := v / 2 ^ 12 % 2 ^ 36 * 2 ^ 12 }) ∧ (off = 16 → set { p with s2root := v / 2 ^ 12 % 2 ^ 36 * 2 ^ 12 }) ∧
  (off = 24 → set { p with pasidt := v / 2 ^ 12 % 2 ^ 45 * 2 ^ 12 }) ∧
  (off = 32 → let x := v % 2 ^ 48; (liesIn p.dies x p.shlen → set { p with shadow := x }) ∧ (¬liesIn p.dies x p.shlen → refused)) ∧
  (off = 40 → let x := v % 2 ^ 48; (liesIn p.dies p.shadow x → set { p with shlen := x }) ∧ (¬liesIn p.dies p.shadow x → refused)) ∧
  (off = 48 → set { p with heap := v % 2 ^ 32, natok := v.testBit 32 }) ∧
  (off = 56 → let lo := v % 2 ^ 16; let hi := v / 2 ^ 16 % 2 ^ 16; let ok := 800 ≤ lo ∧ lo ≤ 1200 ∧ 800 ≤ hi ∧ hi ≤ 1200
    (ok → set { p with fmin := lo, fmax := hi, eqen := v.testBit 32 }) ∧ (¬ok → refused))

/-- What an aligned read of the management space gives (R424). -/
def managed (s : State) (off x : Nat) : Prop :=
  (off = 0 → x = s.mg.power) ∧ (∀ d, d < 4 → off = 8 + 8 * d → x = s.mg.temps.getD d 0) ∧ (off = 0x40 → x = s.mg.porten) ∧
  (off = 0x100 → x = s.mg.head) ∧ (off = 0x108 → x = s.mg.lost) ∧
  (∀ i j, i < 8 → j < 4 → off = 0x200 + 32 * i + 8 * j → x = leNat (((s.mg.meas.getD i []).drop (8 * j)).take 8)) ∧
  (∀ i j, i < 64 → j < 4 → off = 0x800 + 32 * i + 8 * j → x = leNat (((s.mg.ring.getD i []).drop (8 * j)).take 8)) ∧
  (∀ n, n < 4 → off = 0x1000 + 0x100 * n → x = (s.part n).dies + (s.part n).node * 16 + if (s.part n).en then 2 ^ 16 else 0) ∧
  (∀ n, n < 4 → off = 0x1000 + 0x100 * n + 16 → x = (s.part n).s2root)

/-- Every pair of a list has its clock changed, and no other pair (R422). -/
def reclocked (s t : State) (ps : List Nat) (f : Nat → Nat) : Prop :=
  ∀ i, (i ∈ ps → (t.pair i).mhz = f (s.pair i).mhz) ∧ (i ∉ ps → (t.pair i).mhz = (s.pair i).mhz)

/-- R211, R316, R360, R394, R403, R420, R422 to R424: what HNODE reads and writes in the management space, and that nothing of another node is
taken; a block is written only while its partition holds nothing (log 27), and what lies above the blocks in the ring's range is theirs (log 27).
Clock changes; the steps of a throttle, at whose end the clocks are what they were; error records, their fields and their order, and what an
uncorrectable event poisons (which units name it: log 31). The model's readings: that a record of a lower unit comes before one of the same time,
that an event without a partition goes to all, and that a throttle step has a record at its start and one at its end (log 48); that power outside
500 to 3000 is refused, and that a part of 4 or more names the node's own block (log 25). -/
def Obligations.ManagementSteps : Prop :=
  ∀ s,
    (∀ src, (s.mg.status ≠ 2 ∨ src ≠ s.mg.hnode) → ∀ off v i n, let w (la : Nat) := s.writer src 2 la
      let out (la : Nat) : Host.Outcome State Fault Refusal := .next (s.replied (w la) codeRefusedFormat [])
      exec (.registerWrite src off v) s = out off ∧ exec (.portenWrite src v) s = out 0x40 ∧ exec (.extend src i) s = out 0x320 ∧
      exec (.partitionSetup src n off v) s = out (0x1000 + 0x100 * n + off)) ∧
    (s.mg.status = 2 → let h := s.mg.hnode; let w (la : Nat) := s.writer h 2 la
      (∀ v : BitVec 64, (500 ≤ v.toNat → v.toNat ≤ 3000 →
          exec (.registerWrite h 0 v) s = .next (({ s with mg := { s.mg with power := v.toNat } } : State).replied (w 0) 0 [])) ∧
        ((v.toNat < 500 ∨ 3000 < v.toNat) → exec (.registerWrite h 0 v) s = .next (s.replied (w 0) codeRefusedFormat [])) ∧
        (∀ k, k < 4 → exec (.registerWrite h (8 + 8 * k) v) s =
          .next (({ s with mg := { s.mg with temps := s.mg.temps.set k v.toNat } } : State).replied (w (8 + 8 * k)) 0 [])) ∧
        (∀ k, k < 4 → exec (.registerWrite h (0x300 + 8 * k) v) s = .next (({ s with mg := { s.mg with
          staged := s.mg.staged.take (8 * k) ++ leBytes 8 v.toNat ++ s.mg.staged.drop (8 * k + 8) } } : State).replied (w (0x300 + 8 * k)) 0 [])) ∧
        (exec (.portenWrite h v) s = .next (({ s with mg := { s.mg with porten := v.toNat % 2 ^ 16 } } : State).replied (w 0x40) 0 [])) ∧
        (exec (.registerWrite h 0x40 v) s = exec (.portenWrite h v) s ∧ exec (.registerWrite h 0x320 v) s = exec (.extend h v.toNat) s) ∧
        (∀ n off, n < 4 → off < 0x100 → exec (.registerWrite h (0x1000 + 0x100 * n + off) v) s = exec (.partitionSetup h n off v) s) ∧
        (∀ off, off % 8 ≠ 0 → exec (.registerWrite h off v) s = .next (s.replied (w off) codeRefusedFormat []))) ∧
      (∀ i, 3 ≤ i → i ≤ 7 → exec (.extend h i) s = .next (({ s with mg := { s.mg with
        meas := s.mg.meas.modify i fun m => sha256 (m ++ s.mg.staged) } } : State).replied (w 0x320) 0 [])) ∧
      (∀ i, (i < 3 ∨ 7 < i) → exec (.extend h i) s = .next (s.replied (w 0x320) codeRefusedFormat [])) ∧
      (∀ n off (v : BitVec 64), let q := w (0x1000 + 0x100 * n + off)
        (n < 4 → n < s.parts.length → s.partIdle n = true → setupGives s n off v.toNat (exec (.partitionSetup h n off v) s) q) ∧
        ((4 ≤ n ∨ 0x100 ≤ off ∨ s.partIdle n = false ∨ off % 8 ≠ 0) →
          exec (.partitionSetup h n off v) s = .next (s.replied q codeRefusedFormat []))) ∧
      (∀ r : HostReq, 4 ≤ r.part → r.resp = false → let v : State := { s with draws := s.draws + 1 }; let q := s.asker r
        ((r.zero ≠ 0 ∨ 4 < r.ord ∨ r.space ≠ 2 ∨ r.len ≠ 8 ∨ r.addr % 8 ≠ 0 ∨ r.src ≠ h) →
          exec (.hostMemoryRequest r) s = .next (v.replied q codeRefusedFormat [])) ∧
        (r.zero = 0 → r.ord ≤ 4 → r.space = 2 → r.len = 8 → r.addr % 8 = 0 → r.src = h →
          (r.op = .read → ∃ x, managed s r.addr x ∧ exec (.hostMemoryRequest r) s = .next (v.replied q 0 (leBytes 8 x))) ∧
          (∀ n, n < 4 → n < s.parts.length → s.partIdle n = true → r.op = .write → 0x1000 + 0x100 * n ≤ r.addr → r.addr < 0x1100 + 0x100 * n →
            setupGives v n (r.addr % 0x100) (leNat (exactly 8 r.data)) (exec (.hostMemoryRequest r) s) q)))) ∧
    (∀ n x rest, (s.part n).eqxQ = x :: rest → n < s.parts.length → ∃ t, exec (.equinoxClockChange n) s = .next t ∧ (t.part n).eqxQ = rest ∧
      t.mem = s.mem ∧ t.g = s.g ∧ (t.pairs = s.pairs ∨ x.gains ≠ x.loses ∧ s.throttledPart n = false ∧
        (t.pair x.gains).mhz = (s.pair x.gains).mhz + 25 ∧ (t.pair x.loses).mhz = (s.pair x.loses).mhz - 25 ∧
        (t.pair x.gains).mhz ≤ min (s.part n).fmax 1200 ∧ max (s.part n).fmin 800 ≤ (t.pair x.loses).mhz)) ∧
    (∀ d, let down := (diePairs d).filter fun i => (s.pair i).mhz ≥ 825
      ∃ t u, exec (.thermalThrottle d true) s = .next t ∧ exec (.thermalThrottle d false) t = .next u ∧ reclocked s t down (· - 25) ∧
        (∀ i, (u.pair i).mhz = (s.pair i).mhz) ∧ t.mg.head = s.mg.head + 1 ∧ u.mg.head = s.mg.head + 2 ∧ t.g = s.g ∧
        (noVector s 3 → t.mem = s.mem ∧ u.mem = s.mem)) ∧
    (∀ d x, s.mg.throttled.find? (fun x => x.1 = d) = some x → x.2.Nodup → ∃ t, exec (.thermalThrottle d false) s = .next t ∧
      reclocked s t x.2 (· + 25) ∧ t.mg.throttled = s.mg.throttled.erase x ∧ t.mg.head = s.mg.head + 1) ∧
    (∀ cls part unit count addr, ∃ t, exec (.errorRecord cls part unit count addr) s = .next t ∧ t.mg.head = s.mg.head + 1 ∧
      t.mg.lost = s.mg.lost + (if s.mg.ring.length = 256 then 1 else 0) ∧ (noVector s 3 → t.mem = s.mem) ∧ t.spad = s.spad ∧
      (let r (seq : Nat) : List Byte := leBytes 1 cls ++ leBytes 1 part ++ leBytes 2 unit ++ leBytes 4 (min count 0xFFFFFFFF) ++ leBytes 8 addr ++
          leBytes 8 s.now ++ leBytes 8 seq
        let time (seq : Nat) : Nat := leNat (((s.mg.recordAt seq).drop 16).take 8)
        let h := s.mg.head
        s.mg.ring.length = min h 256 →
          ((h = 0 ∨ time (h - 1) ≠ s.now) → t.mg.recordAt h = r h) ∧
          (0 < h → time (h - 1) = s.now → unit % 2 ^ 16 < leNat (((s.mg.recordAt (h - 1)).drop 2).take 2) → (h = 1 ∨ time (h - 2) ≠ s.now) →
            t.mg.recordAt (h - 1) = r (h - 1) ∧ t.mg.recordAt h = (s.mg.recordAt (h - 1)).take 24 ++ leBytes 8 h)) ∧
      (∀ n i, n < s.parts.length → (s.part n).en = true → (part = 0xFF ∨ (s.part n).dies.testBit (unit / 2 ^ 14 % 4) = true) →
        (s.part n).remap[3]? = some i → i.v = false → (t.part n).remap[3]? = some { i with pend := true }) ∧
      (cls ≠ 3 → t.poison = s.poison ∧ t.spoison = s.spoison ∧ t.pairs = s.pairs) ∧
      (cls = 3 → let d := unit / 2 ^ 14 % 4; let u := unit % 2 ^ 14
        (part ≠ 0xFF → u < 48 → addr < 2 ^ 21 → t.spoison = s.spoison ++ [(48 * d + u, addr / 4 * 4)] ∧ t.poison = s.poison) ∧
        (part ≠ 0xFF → 48 ≤ u → u < 72 → addr < 896 → matUnitPart addr ∈ (t.pair (24 * d + (u - 48))).psn ∧ t.poison = s.poison ∧
          t.spoison = s.spoison) ∧
        ((part = 0xFF ∨ 72 ≤ u) → addr / 256 ∈ t.poison ∧ (∀ l ∈ t.poison, l = addr / 256 ∨ l ∈ s.poison) ∧ t.spoison = s.spoison)))

/-- R418 to R420: bring-up. The image window and the node word are written while the status is 0 or 3, and each write is answered to its writer (log
13); writing 1 to the status word starts verification, which ends in the module running with M0 extended by the image's digest, or in a refused
image. A packet while no image runs is one of those accesses, a read of the status, or refused. -/
def Obligations.BootSteps : Prop :=
  ∀ s,
    (∃ t, exec .powerUp s = .next t ∧ t.mg = State.reset.mg ∧ t.mem = [] ∧ t.spad = [] ∧ t.cohorts = [] ∧ t.launches = [] ∧
      t.ops = []) ∧
    (∀ off (x : Sent (List Byte)), let q := s.writer x.src 0 off
      ((s.mg.status = 0 ∨ s.mg.status = 3) → x.what.length = 64 → off + 64 ≤ 2 ^ 24 → exec (.bootImageWrite off x) s =
        .next (({ s with mg := { s.mg with window := s.mg.window.writeN off x.what } } : State).replied q 0 [])) ∧
      (((s.mg.status ≠ 0 ∧ s.mg.status ≠ 3) ∨ x.what.length ≠ 64 ∨ 2 ^ 24 < off + 64) →
        exec (.bootImageWrite off x) s = .next (s.replied q codeRefusedFormat []))) ∧
    (∀ x : Sent (BitVec 64), let q := s.writer x.src 0 0x1000008
      ((s.mg.status = 0 ∨ s.mg.status = 3) → exec (.nodeWordWrite x) s = .next (({ s with mg := { s.mg with
        mnode := x.what.toNat % 2 ^ 12, hnode := x.what.toNat / 2 ^ 16 % 2 ^ 12, nodeWritten := true } } : State).replied q 0 [])) ∧
      (s.mg.status ≠ 0 → s.mg.status ≠ 3 → exec (.nodeWordWrite x) s = .next (s.replied q codeRefusedFormat []))) ∧
    (∀ src, let q := s.writer src 0 0x1000000
      ((s.mg.status = 0 ∨ s.mg.status = 3) → ∃ t : State, exec (.bootStatusWrite src 1) s = .next (t.replied q 0 []) ∧ t.mg.status = 1 ∧
        t.mg.window = s.mg.window ∧ (s.mg.nodeWritten = true → t.mg.hnode = s.mg.hnode ∧ t.mg.mnode = s.mg.mnode) ∧
        (s.mg.nodeWritten = false → t.mg.hnode = src ∧ t.mg.mnode = 0)) ∧
      (∀ v : BitVec 64, (v ≠ 1 ∨ (s.mg.status ≠ 0 ∧ s.mg.status ≠ 3)) → exec (.bootStatusWrite src v) s = .next (s.replied q 0 []))) ∧
    (s.mg.status = 1 → ∃ t, exec .imageVerified s = .next t ∧
      (imageGood s.mg.image = true → t.mg.status = 2 ∧ t.mg.porten = 0xFFFF ∧ (s.mg.meas ≠ [] →
        t.mg.meas[0]? = some (sha256 (List.replicate 32 0 ++ sha256 s.mg.image))) ∧ ∀ i, 0 < i → t.mg.meas[i]? = s.mg.meas[i]?) ∧
      (imageGood s.mg.image = false → t.mg.status = 3 ∧ t.mg.window = [])) ∧
    (∀ r : HostReq, s.mg.status ≠ 2 → r.resp = false → let v : State := { s with draws := s.draws + 1 }; let q := s.asker r
      let out := exec (.hostMemoryRequest r) s
      let plain := r.zero = 0 ∧ r.space = 0 ∧ r.ord ≤ 4
      (plain → r.op = .read → r.addr = 0x1000000 → r.len = 8 → out = .next (v.replied q 0 (leBytes 8 s.mg.status))) ∧
      (r.op = .read → ¬(plain ∧ r.addr = 0x1000000 ∧ r.len = 8) → out = .next (v.replied q codeRefusedFormat [])) ∧
      (plain → r.op = .write → r.len = 64 → (s.mg.status = 0 ∨ s.mg.status = 3) → r.addr + 64 ≤ 2 ^ 24 → out = .next (({ v with mg := { s.mg with
        window := s.mg.window.writeN r.addr (exactly 64 r.data) } } : State).replied q 0 [])) ∧
      (r.op = .write → (¬plain ∨ (r.len ≠ 64 ∧ (r.len ≠ 8 ∨ (r.addr ≠ 0x1000000 ∧ r.addr ≠ 0x1000008)))) →
        out = .next (v.replied q codeRefusedFormat [])) ∧
      (∀ a, r.op = .atomic a → out = .next (v.replied q codeRefusedFormat [])))

/-! ## Reset -/

/-- R204, R342, R418, R420 and the model's own reset values (log 2): after reset the memories are in their canonical form and list nothing,
the module waits for an image, the measurement registers are zero, no partition is enabled and nothing runs. -/
def Obligations.ResetState : Prop :=
  let s := State.reset
  s.memOk ∧ s.spadOk ∧ s.mem = [] ∧ s.spad = [] ∧ s.mg.status = 0 ∧ s.mg.meas = List.replicate 8 (List.replicate 32 0) ∧
  s.mg.nodeWritten = false ∧ s.cohorts = [] ∧ s.launches = [] ∧ s.ops = [] ∧ s.locks = [] ∧ (∀ n, (s.part n).en = false) ∧
  (∀ n q, (s.queue n q).pkts = []) ∧ s.may = []

/-! ## Decoding -/

/-- R43 to R64: the decoder reads the sample words as the spec does. -/
def Obligations.DecodesSampleWords : Prop := ∀ x ∈ sampleWords, decode x.1 = .ok x.2 ∧ encode x.2 = x.1

/-- R43 to R62: a well-formed instruction decodes from its own units, whatever follows them. -/
def Obligations.EncodeDecode : Prop := ∀ i : Instr, i.wellFormed = true → ∀ more, decode (encode i ++ more) = .ok i

/-- R40 to R62: what decodes is well-formed, and its units are those that its encoding gives: no bit of a word is dropped. -/
def Obligations.DecodeEncode : Prop :=
  ∀ us i, decode us = .ok i → i.wellFormed = true ∧ ∃ more, us = encode i ++ more

/-- R65 (and R44 where the text ends): a base word of an unassigned opcode raises ILLEGAL_OPCODE whatever its other fields hold and whatever
follows it, no literal is read after it, and a word of zeros is one; so do one unit alone and a word whose literal would pass the end of
the text. -/
def Obligations.UnassignedRefused : Prop :=
  (∀ lo hi more, assigned (wordOp (baseWord lo hi)) = false →
    decode (lo :: hi :: more) = .error ⟨.illegalOpcode, 0, 0⟩ ∧ unitLength (lo :: hi :: more) = 8 ∧
    ∀ s : State, s.g.here.pc % 4 = 0 → s.fetch = lo :: hi :: more → s.fetched = .error ⟨.illegalOpcode, 0, 0⟩ ∧
      s.wordFault ⟨.illegalOpcode, 0, 0⟩ = ⟨.illegalOpcode, 0, 0⟩) ∧
  (∀ op, op < 256 → (assigned op = false ↔ op = 0 ∨ (0x15 ≤ op ∧ op ≤ 0x1F) ∨ (0x3C ≤ op ∧ op ≤ 0x3F) ∨ (0x5D ≤ op ∧ op ≤ 0x6F) ∨
    (0x87 ≤ op ∧ op ≤ 0x8F) ∨ (0x97 ≤ op ∧ op ≤ 0x9F) ∨ (0xB1 ≤ op ∧ op ≤ 0xBF) ∨ (0xCD ≤ op ∧ op ≤ 0xCF) ∨ (0xDE ≤ op ∧ op ≤ 0xDF) ∨
    0xEC ≤ op)) ∧
  (∀ more, decode (0 :: 0 :: more) = .error ⟨.illegalOpcode, 0, 0⟩) ∧
  decode [] = .error ⟨.illegalOpcode, 0, 0⟩ ∧ (∀ lo, decode [lo] = .error ⟨.illegalOpcode, 0, 0⟩) ∧
  (∀ op f, assigned op = true → isJ op = false → isS op = false → op ≠ 0x0B → f.lit = .none →
    litCodes (opShape op f) f ≠ [] → decode (encBase (encFields op f)) = .error ⟨.illegalOpcode, 0, 0⟩)

/-! ## Stepping -/

/-- R43, R44, R91, R354, R357 (log 1): where no event is due and none may happen, a step issues the instruction at the PC of the gang and
slot that issue next, or its word traps; where nothing issues half a ns passes; an event that is due is taken, and of those that may happen one or
none. -/
def Obligations.StepRunsDecoded : Prop :=
  (∀ s, let u := s.markEligible
    (∀ v i, u.due = some (v, i) → step s = exec i v) ∧
    (u.due = none → u.may = [] →
      (∀ g n, u.choice = some (g, n) → let v := u.select g.cohort g.f2 n
        (∀ i, v.fetched = .ok i → step s = exec i v) ∧ (∀ e, v.fetched = .error e → step s = .next (v.decodeTrap e))) ∧
      (u.choice = none → step s = .next u.advance)) ∧
    (u.due = none → u.may ≠ [] → let v : State := { u with draws := u.draws + 1 }
      (∃ i ∈ u.may, step s = exec i v ∨ step s = exec i v.took) ∨ step s = quietStep v)) ∧
  (∀ s : State, s.g.here.pc % 4 = 0 → s.fetched = decode (s.g.kn.units s.g.here.pc)) ∧
  (∀ s : State, s.g.here.pc % 4 ≠ 0 → s.fetched = .error ⟨.misaligned, 0, 0⟩)

/-- R32 to R42: every step of the module goes on, and so does every instruction in every state. -/
def Obligations.EverythingGoesOn : Prop := (∀ s, Safe s) ∧ ∀ i s, ∃ t, exec i s = .next t

/-- R34, R40, R41, R89 (log 44): a decode fault comes before everything else; a word whose units are taken has not issued, and its slot tries again no
sooner than one of them may be free; STALL_SHORT comes before the instruction's own checks. Either trap leaves the instruction without
effect; text that Oliesh wrote has no STALL_SHORT, and a result that its counts cannot cover holds the issue (R39, R409, log 6). A gang-uniform word whose guard is false in every active lane is skipped whole: it only issues; `sld` and `sst` still update their
address register. -/
def Obligations.IssueChecks : Prop :=
  (∀ i v s, Instr.view i = some v → let w := stepView s v; let also := alsoOf s.land w
     (∀ e, decodeFault s.land.g v w = some e → exec i s = .next (takeTrap s.land.takeIssue e (wordOf v) (litOf v))) ∧
     (decodeFault s.land.g v w = none →
       (¬s.free w also → ∃ t, exec i s = .next (s.land.setHere { s.land.g.here with wake := t }) ∧ s.land.g.here.wake ≤ t ∧ s.land.cyc < t) ∧
       (s.free w also → ∀ d, s.land.short w also = some d →
         (s.land.g.kn.waits = false → s.land.g.chk = true →
           exec i s = .next (takeTrap s.land.takeIssue ⟨.stallShort, d, 0⟩ (wordOf v) (litOf v))) ∧
         (s.land.g.kn.waits = true → exec i s =
           .next (s.land.setHere { s.land.g.here with wake := max s.land.g.here.wake (s.land.cyc + 1) }))))) ∧
  ((∀ i op f s, Instr.view i = some (.cf op f) → op ∈ uniformOps → s.letsF op f → s.land.acts f.h = false →
     (s.readsF op f).acts f.h = false → exec i s = .next (s.pastF (s.readsF op f) op f (.seq 1))) ∧
   (∀ i op f s, Instr.view i = some (.cj op f) → op ≠ 0x05 → s.letsJ op f → (s.readsJ op f).acts f.h = false →
     exec i s = .next (s.pastJ (s.readsJ op f) op f (.seq 1))) ∧
   (∀ i op f s, Instr.view i = some (.cs op f) → s.letsS op f → (s.readsS op f).acts f.h = false →
     exec i s = .next (s.pastS (s.readsS op f) op f (.seq 1))) ∧
   (∀ f s,
     (s.letsF 0x36 f → let u := s.readsF 0x36 f; u.acts f.h = false →
       exec (.sld f) s = .next (s.pastF (u.addPends (u.postInc 0 (s.stepped f))) 0x36 f (.seq 1))) ∧
     (s.letsF 0x37 f → let u := s.readsF 0x37 f; u.acts f.h = false →
       exec (.sst f) s = .next (s.pastF (u.addPends (u.postInc 0 (s.stepped f))) 0x37 f (.seq 1)))))


/-- R32, R33, R35, R41, R91, R100, R102, R367: how a word that has had its effect leaves the gang. Its slot goes on to the next repetition, to the
next word or to its target, no earlier than its span and STALL allow; the other slot, the registers and everything outside the gang stand. A
word that blocks counts as issued and leaves the slot where it is, and goes on past it once it completes; a trap of one that has not issued leaves the
region state alone, and one of a word in which the slot is blocked goes back to the region state without it (log 29).
Results in flight change no register before they land. -/
def Obligations.GoingOn : Prop :=
  (∀ (u : State) v pc, u.g.cur ≤ 1 → let x := u.g.here
     (∀ fl, (∃ n, fl = .seq n) ∨ (∃ a, fl = .goto a) → let t := goOn u v pc fl
       keepsRegs u t ∧ t.g.pend = u.g.pend ∧ t.g.prom = u.g.prom ∧ sameAround u t ∧ t.g.slot (1 - u.g.cur) = u.g.slot (1 - u.g.cur) ∧
       t.g.here.mask = x.mask ∧ t.g.here.live = x.live ∧ t.g.here.join = x.join ∧ t.g.here.block = .none ∧ t.g.here.acq = x.acq ∧
       t.g.lastIssue = u.cyc + 1 ∧ t.g.lastSlot = u.g.cur ∧
       t.g.issues = u.g.issues + 1 ∧ t.g.regpc = (if v.hdr.region then pc else u.g.regpc) ∧
       t.g.regcnt = (if v.hdr.region then 0 else min (u.g.regcnt + 1) 0xFFFFFFFF)) ∧
     (∀ n, let t := goOn u v pc (.seq n)
       t.g.here.next = u.cyc + n + v.hdr.stall.toNat ∧
       (x.rep.rep + 1 < x.rep.nrep → t.g.here.pc = x.pc ∧ t.g.here.rep = { x.rep with rep := x.rep.rep + 1 }) ∧
       (x.rep.nrep ≤ x.rep.rep + 1 → t.g.here.pc = x.pc + v.length ∧ t.g.here.rep.nrep = 0)) ∧
     (∀ a, let t := goOn u v pc (.goto a); t.g.here.pc = a ∧ t.g.here.next = u.cyc + max (1 + v.hdr.stall.toNat) 3) ∧
     (∀ b, let t := goOn u v pc (.blocked b)
       keepsRegs u t ∧ sameAround u t ∧ t.g.here.block = b ∧ t.g.here.pc = x.pc ∧ t.g.here.rep = x.rep ∧
       t.g.issues = u.g.issues + 1 ∧ t.g.regpc = (if v.hdr.region then pc else u.g.regpc) ∧
       t.g.regcnt = (if v.hdr.region then 0 else min (u.g.regcnt + 1) 0xFFFFFFFF) ∧
       t.g.basepc = u.g.basepc ∧ t.g.basecnt = u.g.basecnt) ∧
     (∀ c, u.blockedView = some v → let t := completeBlocked u c
       keepsRegs u t ∧ sameAround u t ∧ t.g.here.block = .none ∧ t.g.here.next = max x.next c ∧ t.g.here.pc = x.pc + v.length ∧
       t.g.pend = u.g.pend ∧ t.g.prom = u.g.prom ∧ t.g.issues = u.g.issues ∧ t.g.regpc = u.g.regpc ∧ t.g.regcnt = u.g.regcnt ∧
       t.g.slot (1 - u.g.cur) = u.g.slot (1 - u.g.cur))) ∧
  (∀ (u : State) e w l o entry, u.g.mode = false → u.g.kn.handler = some entry → let t := takeTrap u e w l o
     t.g.regpc = u.g.regpc ∧ t.g.regcnt = u.g.regcnt) ∧
  (∀ (u : State) e o entry, u.g.mode = false → u.g.kn.handler = some entry → let t := trapBlocked u e o
     (t.g.regpc, t.g.regcnt) = if u.g.cur = 0 then u.g.without0 else u.g.without1) ∧
  (∀ (u : State) ps, let t := u.addPends ps
     keepsRegs u t ∧ sameAround u t ∧ t.g.s0 = u.g.s0 ∧ t.g.s1 = u.g.s1 ∧ t.g.prom = u.g.prom ∧
     (∀ p, p ∈ t.g.pend ↔ p ∈ u.g.pend ∨ p ∈ ps))

/-! ## Registers, memory and scratchpad -/

/-- R19 to R23, R32, R145, R317: a result that lands sets its register and no other; p0 stays true, and an l target shifts its file. -/
def Obligations.RegistersHold : Prop :=
  ∀ g t x, tgtOk g t → (Gang.put g t x).raw t = holds t x ∧ (∀ u, tgtOk g u → u ≠ t → (Gang.put g t x).raw u = g.raw u) ∧
    (∀ k b i, t = .l k b i → (((g.put t x).lane k).l.getD (lIdx b i + 1) 0) = ((g.lane k).l.getD (lIdx b i) 0)) ∧
    (g.put t x).lanes.length = g.lanes.length ∧ (g.put t x).mode = g.mode ∧ (g.put t x).pend = g.pend ∧ (g.put t x).s0 = g.s0 ∧
    (g.put t x).s1 = g.s1

/-- R203: the lane view and the linear view of a scratchpad name the same bytes; bit 21 of a linear address names the other core of the
pair. -/
def Obligations.TwoViews : Prop :=
  (∀ l o, l < 256 → o < 8192 → linOf l o = ((o >>> 4) <<< 12) ||| (l <<< 4) ||| (o &&& 15) ∧ linOf l o < 2 ^ 21 ∧
    laneOf (linOf l o) = l ∧ offOf (linOf l o) = o) ∧
  (∀ a, a < 2 ^ 21 → laneOf a = (a >>> 4) &&& 255 ∧ offOf a = ((a >>> 12) <<< 4) ||| (a &&& 15) ∧ laneOf a < 256 ∧ offOf a < 8192 ∧
    linOf (laneOf a) (offOf a) = a) ∧
  (∀ (s : State) k a n, s.g.core < 2 →
    (a < 2 ^ 21 → let x := s.linAcc k a n
      x.core = coreOf s.coh.pair s.g.core ∧ x.lane = laneOf a ∧ x.off = offOf a ∧ x.out = false) ∧
    (2 ^ 21 ≤ a → a < 2 ^ 22 → let x := s.linAcc k a n
      x.core = coreOf s.coh.pair (1 - s.g.core) ∧ x.lane = laneOf (a - 2 ^ 21) ∧ x.off = offOf (a - 2 ^ 21) ∧ x.out = false) ∧
    (2 ^ 22 ≤ a → (s.linAcc k a n).out = true) ∧
    (let x := s.viewAcc k a n; x.core = coreOf s.coh.pair s.g.core ∧ x.lane = s.g.phys k ∧ x.off = a ∧ (x.out = true ↔ 8192 ≤ a))) ∧
  (∀ a i, a % 16 = 0 → i < 16 → laneOf (a + i) = laneOf a) ∧
  (∀ b l, b % 4096 = 0 → l < 256 → laneOf (b + 16 * l) = l ∧ offOf (b + 16 * l) = b / 4096 * 16)

/-- R5, R203, R206 (log 3): a memory in its canonical form reads back the bytes written to it, and every other byte as before; two such
memories that read alike are the same. -/
def Obligations.MemoryReadsBack : Prop :=
  ∀ m : Memory, m.wf = true →
    (∀ a bs b, (m.writeN a bs).read b = if a ≤ b ∧ b < a + bs.length then bs.getD (b - a) 0 else m.read b) ∧
    (∀ n : Memory, n.wf = true → (∀ a, m.read a = n.read a) → m = n)

/-- R28, R203, R211, R213, R221: an effect that reaches the scratchpad changes the bytes it names, of the core it names, and no other byte of any
scratchpad or of memory, and no register. A byte that a write later in the coherence order has already left it does not change. That a word
which it covers whole is poisoned no longer is the model's reading (log 31): R211 says when a line's mark goes, and not when a scratchpad word's
does. -/
def Obligations.EffectsLand : Prop :=
  ∀ s x, s.spadOk → let bs := (x.result (x.reads (s.pad x.core))).1; bs.length = x.len → let t := applyFx s x
    (∀ c a, (t.pad c).read a = if c = x.core ∧ x.addr ≤ a ∧ a < x.addr + x.len ∧ a ∉ x.dead then bs.getD (a - x.addr) 0
      else (s.pad c).read a) ∧
    (x.old = none → x.reads (s.pad x.core) = (s.pad x.core).readN x.addr x.len) ∧
    (∀ p, p ∈ t.spoison ↔ p ∈ s.spoison ∧ ¬(p.1 = x.core ∧ x.addr ≤ p.2 ∧ p.2 + 4 ≤ x.addr + x.len)) ∧ t.poison = s.poison ∧
    t.mem = s.mem ∧ t.g.lanes = s.g.lanes ∧ t.g.s = s.g.s ∧ t.g.m = s.g.m ∧ t.g.k = s.g.k ∧ t.spadOk ∧
    (t.others.map fun g => { g with fx := [] }) = s.others.map fun g => { g with fx := [] }

/-- R206, R243: no word but `ecncl`, which lets a copy finish what it has begun, changes a byte of global memory at its issue: engines do, as
steps of their own. -/
def Obligations.WordsLeaveGlobalMemory : Prop :=
  ∀ i s t, (Instr.view i).isSome = true → (∀ f, i ≠ .ecncl f) → exec i s = .next t → t.mem = s.mem

/-- R99, R362: of all words only `tret` leaves handler mode, and a word enters it only by a trap, which starts the handler in slot 0. -/
def Obligations.HandlerMode : Prop :=
  ∀ i s t, (Instr.view i).isSome = true → exec i s = .next t →
    (s.g.mode = true → (∀ f, i ≠ .tret f) → t.g.mode = true) ∧
    (s.g.mode = false → t.g.mode = true → t.g.kn.handler = some t.g.s0.pc ∧ t.g.cur = 0 ∧ t.g.s1.live = false ∧
      ∀ p ∈ t.g.pend, p.due ≤ t.g.s0.next)

/-- R206 (log 3): every step keeps global memory in its canonical form. -/
def Obligations.StepKeepsMemory : Prop := ∀ s t, s.memOk → step s = .next t → t.memOk

/-- R204 (log 3): every step keeps every scratchpad in its canonical form. -/
def Obligations.StepKeepsScratchpad : Prop := ∀ s t, s.spadOk → step s = .next t → t.spadOk
end

