-- ==== Sys2Proof/Laws/Exec.lean ====
section
/-! SUPPORT. What exec calls for each constructor, so that no proof unfolds the dispatch. -/
namespace Sys2Proof.Machine

open Sys2Proof

@[simp] theorem exec_nop {f s} : exec (.nop f) s = execNop f s := rfl
@[simp] theorem exec_bra {f s} : exec (.bra f) s = execBra f s := rfl
@[simp] theorem exec_brz {f s} : exec (.brz f) s = execBrz f s := rfl
@[simp] theorem exec_brnz {f s} : exec (.brnz f) s = execBrnz f s := rfl
@[simp] theorem exec_brv {f s} : exec (.brv f) s = execBrv f s := rfl
@[simp] theorem exec_jmp {f s} : exec (.jmp f) s = execJmp f s := rfl
@[simp] theorem exec_call {f s} : exec (.call f) s = execCall f s := rfl
@[simp] theorem exec_callr {f s} : exec (.callr f) s = execCallr f s := rfl
@[simp] theorem exec_ret {f s} : exec (.ret f) s = execRet f s := rfl
@[simp] theorem exec_loop {f s} : exec (.loop f) s = execLoop f s := rfl
@[simp] theorem exec_rpt {f s} : exec (.rpt f) s = execRpt f s := rfl
@[simp] theorem exec_exit {f s} : exec (.exit f) s = execExit f s := rfl
@[simp] theorem exec_yield {f s} : exec (.yield f) s = execYield f s := rfl
@[simp] theorem exec_trap {f s} : exec (.trap f) s = execTrap f s := rfl
@[simp] theorem exec_tret {f s} : exec (.tret f) s = execTret f s := rfl
@[simp] theorem exec_brk {f s} : exec (.brk f) s = execBrk f s := rfl
@[simp] theorem exec_sysrd {f s} : exec (.sysrd f) s = execSysrd f s := rfl
@[simp] theorem exec_syswr {f s} : exec (.syswr f) s = execSyswr f s := rfl
@[simp] theorem exec_launch {f s} : exec (.launch f) s = execLaunch f s := rfl
@[simp] theorem exec_elect {f s} : exec (.elect f) s = execElect f s := rfl
@[simp] theorem exec_sadd {f s} : exec (.sadd f) s = execSadd f s := rfl
@[simp] theorem exec_ssub {f s} : exec (.ssub f) s = execSsub f s := rfl
@[simp] theorem exec_smul {f s} : exec (.smul f) s = execSmul f s := rfl
@[simp] theorem exec_smulh {f s} : exec (.smulh f) s = execSmulh f s := rfl
@[simp] theorem exec_sdiv {f s} : exec (.sdiv f) s = execSdiv f s := rfl
@[simp] theorem exec_srem {f s} : exec (.srem f) s = execSrem f s := rfl
@[simp] theorem exec_sand {f s} : exec (.sand f) s = execSand f s := rfl
@[simp] theorem exec_sor {f s} : exec (.sor f) s = execSor f s := rfl
@[simp] theorem exec_sxor {f s} : exec (.sxor f) s = execSxor f s := rfl
@[simp] theorem exec_sshl {f s} : exec (.sshl f) s = execSshl f s := rfl
@[simp] theorem exec_sshr {f s} : exec (.sshr f) s = execSshr f s := rfl
@[simp] theorem exec_ssra {f s} : exec (.ssra f) s = execSsra f s := rfl
@[simp] theorem exec_smin {f s} : exec (.smin f) s = execSmin f s := rfl
@[simp] theorem exec_smax {f s} : exec (.smax f) s = execSmax f s := rfl
@[simp] theorem exec_scmp {f s} : exec (.scmp f) s = execScmp f s := rfl
@[simp] theorem exec_ssel {f s} : exec (.ssel f) s = execSsel f s := rfl
@[simp] theorem exec_smov {f s} : exec (.smov f) s = execSmov f s := rfl
@[simp] theorem exec_sbfe {f s} : exec (.sbfe f) s = execSbfe f s := rfl
@[simp] theorem exec_sbfi {f s} : exec (.sbfi f) s = execSbfi f s := rfl
@[simp] theorem exec_spopc {f s} : exec (.spopc f) s = execSpopc f s := rfl
@[simp] theorem exec_sclz {f s} : exec (.sclz f) s = execSclz f s := rfl
@[simp] theorem exec_sctz {f s} : exec (.sctz f) s = execSctz f s := rfl
@[simp] theorem exec_sld {f s} : exec (.sld f) s = execSld f s := rfl
@[simp] theorem exec_sst {f s} : exec (.sst f) s = execSst f s := rfl
@[simp] theorem exec_rdlane {f s} : exec (.rdlane f) s = execRdlane f s := rfl
@[simp] theorem exec_wrlane {f s} : exec (.wrlane f) s = execWrlane f s := rfl
@[simp] theorem exec_smad {f s} : exec (.smad f) s = execSmad f s := rfl
@[simp] theorem exec_slea {f s} : exec (.slea f) s = execSlea f s := rfl
@[simp] theorem exec_add {f s} : exec (.add f) s = execAdd f s := rfl
@[simp] theorem exec_sub {f s} : exec (.sub f) s = execSub f s := rfl
@[simp] theorem exec_mul {f s} : exec (.mul f) s = execMul f s := rfl
@[simp] theorem exec_mulh {f s} : exec (.mulh f) s = execMulh f s := rfl
@[simp] theorem exec_mad {f s} : exec (.mad f) s = execMad f s := rfl
@[simp] theorem exec_min {f s} : exec (.min f) s = execMin f s := rfl
@[simp] theorem exec_max {f s} : exec (.max f) s = execMax f s := rfl
@[simp] theorem exec_abs {f s} : exec (.abs f) s = execAbs f s := rfl
@[simp] theorem exec_neg {f s} : exec (.neg f) s = execNeg f s := rfl
@[simp] theorem exec_and {f s} : exec (.and f) s = execAnd f s := rfl
@[simp] theorem exec_or {f s} : exec (.or f) s = execOr f s := rfl
@[simp] theorem exec_xor {f s} : exec (.xor f) s = execXor f s := rfl
@[simp] theorem exec_not {f s} : exec (.not f) s = execNot f s := rfl
@[simp] theorem exec_shl {f s} : exec (.shl f) s = execShl f s := rfl
@[simp] theorem exec_shr {f s} : exec (.shr f) s = execShr f s := rfl
@[simp] theorem exec_sra {f s} : exec (.sra f) s = execSra f s := rfl
@[simp] theorem exec_rotl {f s} : exec (.rotl f) s = execRotl f s := rfl
@[simp] theorem exec_bfe {f s} : exec (.bfe f) s = execBfe f s := rfl
@[simp] theorem exec_bfi {f s} : exec (.bfi f) s = execBfi f s := rfl
@[simp] theorem exec_popc {f s} : exec (.popc f) s = execPopc f s := rfl
@[simp] theorem exec_clz {f s} : exec (.clz f) s = execClz f s := rfl
@[simp] theorem exec_ctz {f s} : exec (.ctz f) s = execCtz f s := rfl
@[simp] theorem exec_brev {f s} : exec (.brev f) s = execBrev f s := rfl
@[simp] theorem exec_sel {f s} : exec (.sel f) s = execSel f s := rfl
@[simp] theorem exec_icmp {f s} : exec (.icmp f) s = execIcmp f s := rfl
@[simp] theorem exec_mov {f s} : exec (.mov f) s = execMov f s := rfl
@[simp] theorem exec_dot4 {f s} : exec (.dot4 f) s = execDot4 f s := rfl
@[simp] theorem exec_lea {f s} : exec (.lea f) s = execLea f s := rfl
@[simp] theorem exec_prmt {f s} : exec (.prmt f) s = execPrmt f s := rfl
@[simp] theorem exec_fadd {f s} : exec (.fadd f) s = execFadd f s := rfl
@[simp] theorem exec_fsub {f s} : exec (.fsub f) s = execFsub f s := rfl
@[simp] theorem exec_fmul {f s} : exec (.fmul f) s = execFmul f s := rfl
@[simp] theorem exec_fma {f s} : exec (.fma f) s = execFma f s := rfl
@[simp] theorem exec_fmin {f s} : exec (.fmin f) s = execFmin f s := rfl
@[simp] theorem exec_fmax {f s} : exec (.fmax f) s = execFmax f s := rfl
@[simp] theorem exec_fabs {f s} : exec (.fabs f) s = execFabs f s := rfl
@[simp] theorem exec_fneg {f s} : exec (.fneg f) s = execFneg f s := rfl
@[simp] theorem exec_fcmp {f s} : exec (.fcmp f) s = execFcmp f s := rfl
@[simp] theorem exec_fclass {f s} : exec (.fclass f) s = execFclass f s := rfl
@[simp] theorem exec_rcp {f s} : exec (.rcp f) s = execRcp f s := rfl
@[simp] theorem exec_rsqrt {f s} : exec (.rsqrt f) s = execRsqrt f s := rfl
@[simp] theorem exec_sqrt {f s} : exec (.sqrt f) s = execSqrt f s := rfl
@[simp] theorem exec_ex2 {f s} : exec (.ex2 f) s = execEx2 f s := rfl
@[simp] theorem exec_lg2 {f s} : exec (.lg2 f) s = execLg2 f s := rfl
@[simp] theorem exec_sinpi {f s} : exec (.sinpi f) s = execSinpi f s := rfl
@[simp] theorem exec_cospi {f s} : exec (.cospi f) s = execCospi f s := rfl
@[simp] theorem exec_frnd {f s} : exec (.frnd f) s = execFrnd f s := rfl
@[simp] theorem exec_frac {f s} : exec (.frac f) s = execFrac f s := rfl
@[simp] theorem exec_ldexp {f s} : exec (.ldexp f) s = execLdexp f s := rfl
@[simp] theorem exec_cvt {f s} : exec (.cvt f) s = execCvt f s := rfl
@[simp] theorem exec_cvtef {f s} : exec (.cvtef f) s = execCvtef f s := rfl
@[simp] theorem exec_fdot2 {f s} : exec (.fdot2 f) s = execFdot2 f s := rfl
@[simp] theorem exec_pand {f s} : exec (.pand f) s = execPand f s := rfl
@[simp] theorem exec_por {f s} : exec (.por f) s = execPor f s := rfl
@[simp] theorem exec_pxor {f s} : exec (.pxor f) s = execPxor f s := rfl
@[simp] theorem exec_pnot {f s} : exec (.pnot f) s = execPnot f s := rfl
@[simp] theorem exec_pset {f s} : exec (.pset f) s = execPset f s := rfl
@[simp] theorem exec_pget {f s} : exec (.pget f) s = execPget f s := rfl
@[simp] theorem exec_vote {f s} : exec (.vote f) s = execVote f s := rfl
@[simp] theorem exec_mvn {f s} : exec (.mvn f) s = execMvn f s := rfl
@[simp] theorem exec_pdesc {f s} : exec (.pdesc f) s = execPdesc f s := rfl
@[simp] theorem exec_pld {f s} : exec (.pld f) s = execPld f s := rfl
@[simp] theorem exec_pst {f s} : exec (.pst f) s = execPst f s := rfl
@[simp] theorem exec_pew {f s} : exec (.pew f) s = execPew f s := rfl
@[simp] theorem exec_pshift {f s} : exec (.pshift f) s = execPshift f s := rfl
@[simp] theorem exec_prot {f s} : exec (.prot f) s = execProt f s := rfl
@[simp] theorem exec_pspread {f s} : exec (.pspread f) s = execPspread f s := rfl
@[simp] theorem exec_pfold {f s} : exec (.pfold f) s = execPfold f s := rfl
@[simp] theorem exec_prefold {f s} : exec (.prefold f) s = execPrefold f s := rfl
@[simp] theorem exec_ptrans {f s} : exec (.ptrans f) s = execPtrans f s := rfl
@[simp] theorem exec_pscan {f s} : exec (.pscan f) s = execPscan f s := rfl
@[simp] theorem exec_bset {f s} : exec (.bset f) s = execBset f s := rfl
@[simp] theorem exec_bperm {f s} : exec (.bperm f) s = execBperm f s := rfl
@[simp] theorem exec_cfd {f s} : exec (.cfd f) s = execCfd f s := rfl
@[simp] theorem exec_kadd {f s} : exec (.kadd f) s = execKadd f s := rfl
@[simp] theorem exec_pfill {f s} : exec (.pfill f) s = execPfill f s := rfl
@[simp] theorem exec_ldl {f s} : exec (.ldl f) s = execLdl f s := rfl
@[simp] theorem exec_stl {f s} : exec (.stl f) s = execStl f s := rfl
@[simp] theorem exec_ldx {f s} : exec (.ldx f) s = execLdx f s := rfl
@[simp] theorem exec_stx {f s} : exec (.stx f) s = execStx f s := rfl
@[simp] theorem exec_atoms {f s} : exec (.atoms f) s = execAtoms f s := rfl
@[simp] theorem exec_fnc {f s} : exec (.fnc f) s = execFnc f s := rfl
@[simp] theorem exec_bini {f s} : exec (.bini f) s = execBini f s := rfl
@[simp] theorem exec_barv {f s} : exec (.barv f) s = execBarv f s := rfl
@[simp] theorem exec_bexp {f s} : exec (.bexp f) s = execBexp f s := rfl
@[simp] theorem exec_bdrop {f s} : exec (.bdrop f) s = execBdrop f s := rfl
@[simp] theorem exec_btest {f s} : exec (.btest f) s = execBtest f s := rfl
@[simp] theorem exec_wait {f s} : exec (.wait f) s = execWait f s := rfl
@[simp] theorem exec_kset {f s} : exec (.kset f) s = execKset f s := rfl
@[simp] theorem exec_gld {f s} : exec (.gld f) s = execGld f s := rfl
@[simp] theorem exec_gst {f s} : exec (.gst f) s = execGst f s := rfl
@[simp] theorem exec_gatom {f s} : exec (.gatom f) s = execGatom f s := rfl
@[simp] theorem exec_watch {f s} : exec (.watch f) s = execWatch f s := rfl
@[simp] theorem exec_cpy {f s} : exec (.cpy f) s = execCpy f s := rfl
@[simp] theorem exec_gth {f s} : exec (.gth f) s = execGth f s := rfl
@[simp] theorem exec_sct {f s} : exec (.sct f) s = execSct f s := rfl
@[simp] theorem exec_probe {f s} : exec (.probe f) s = execProbe f s := rfl
@[simp] theorem exec_chsend {f s} : exec (.chsend f) s = execChsend f s := rfl
@[simp] theorem exec_chrecv {f s} : exec (.chrecv f) s = execChrecv f s := rfl
@[simp] theorem exec_chrel {f s} : exec (.chrel f) s = execChrel f s := rfl
@[simp] theorem exec_chpoll {f s} : exec (.chpoll f) s = execChpoll f s := rfl
@[simp] theorem exec_eqry {f s} : exec (.eqry f) s = execEqry f s := rfl
@[simp] theorem exec_ecncl {f s} : exec (.ecncl f) s = execEcncl f s := rfl
@[simp] theorem exec_mma {f s} : exec (.mma f) s = execMma f s := rfl
@[simp] theorem exec_mmasp {f s} : exec (.mmasp f) s = execMmasp f s := rfl
@[simp] theorem exec_scout {f s} : exec (.scout f) s = execScout f s := rfl
@[simp] theorem exec_hzn {f s} : exec (.hzn f) s = execHzn f s := rfl
@[simp] theorem exec_drain {f s} : exec (.drain f) s = execDrain f s := rfl
@[simp] theorem exec_azero {f s} : exec (.azero f) s = execAzero f s := rfl
@[simp] theorem exec_qnt {f s} : exec (.qnt f) s = execQnt f s := rfl
@[simp] theorem exec_trq {f s} : exec (.trq f) s = execTrq f s := rfl
@[simp] theorem exec_bput {f s} : exec (.bput f) s = execBput f s := rfl
@[simp] theorem exec_mop {f s} : exec (.mop f) s = execMop f s := rfl
@[simp] theorem exec_mrd {f s} : exec (.mrd f) s = execMrd f s := rfl
@[simp] theorem exec_mwr {f s} : exec (.mwr f) s = execMwr f s := rfl
@[simp] theorem exec_trapEntry {cause detail condw s} : exec (.trapEntry cause detail condw) s = execTrapEntry cause detail condw s := rfl
@[simp] theorem exec_cohortFault {cause s} : exec (.cohortFault cause) s = execCohortFault cause s := rfl
@[simp] theorem exec_gangEnd {s} : exec (.gangEnd) s = execGangEnd s := rfl
@[simp] theorem exec_slotPark {slot s} : exec (.slotPark slot) s = execSlotPark slot s := rfl
@[simp] theorem exec_slotExchange {s} : exec (.slotExchange) s = execSlotExchange s := rfl
@[simp] theorem exec_slotMerge {s} : exec (.slotMerge) s = execSlotMerge s := rfl
@[simp] theorem exec_stackPop {slot s} : exec (.stackPop slot) s = execStackPop slot s := rfl
@[simp] theorem exec_waitSatisfied {slot s} : exec (.waitSatisfied slot) s = execWaitSatisfied slot s := rfl
@[simp] theorem exec_waitTimeout {slot s} : exec (.waitTimeout slot) s = execWaitTimeout slot s := rfl
@[simp] theorem exec_hang {slot s} : exec (.hang slot) s = execHang slot s := rfl
@[simp] theorem exec_promiseMissed {slot s} : exec (.promiseMissed slot) s = execPromiseMissed slot s := rfl
@[simp] theorem exec_fenceRelease {slot s} : exec (.fenceRelease slot) s = execFenceRelease slot s := rfl
@[simp] theorem exec_channelSlotClaim {slot s} : exec (.channelSlotClaim slot) s = execChannelSlotClaim slot s := rfl
@[simp] theorem exec_channelMessageTake {slot s} : exec (.channelMessageTake slot) s = execChannelMessageTake slot s := rfl
@[simp] theorem exec_channelSlotFree {slot s} : exec (.channelSlotFree slot) s = execChannelSlotFree slot s := rfl
@[simp] theorem exec_engineIssueHoldEnd {slot s} : exec (.engineIssueHoldEnd slot) s = execEngineIssueHoldEnd slot s := rfl
@[simp] theorem exec_probePass {op s} : exec (.probePass op) s = execProbePass op s := rfl
@[simp] theorem exec_lockWaitEnd {op s} : exec (.lockWaitEnd op) s = execLockWaitEnd op s := rfl
@[simp] theorem exec_itemPerform {op item s} : exec (.itemPerform op item) s = execItemPerform op item s := rfl
@[simp] theorem exec_operationCompletion {op s} : exec (.operationCompletion op) s = execOperationCompletion op s := rfl
@[simp] theorem exec_watchComplete {op s} : exec (.watchComplete op) s = execWatchComplete op s := rfl
@[simp] theorem exec_channelLanding {op s} : exec (.channelLanding op) s = execChannelLanding op s := rfl
@[simp] theorem exec_matrixOpStart {pair s} : exec (.matrixOpStart pair) s = execMatrixOpStart pair s := rfl
@[simp] theorem exec_matrixOpComplete {pair s} : exec (.matrixOpComplete pair) s = execMatrixOpComplete pair s := rfl
@[simp] theorem exec_routerGrant {router out s} : exec (.routerGrant router out) s = execRouterGrant router out s := rfl
@[simp] theorem exec_slackTick {s} : exec (.slackTick) s = execSlackTick s := rfl
@[simp] theorem exec_routerPowerOff {router s} : exec (.routerPowerOff router) s = execRouterPowerOff router s := rfl
@[simp] theorem exec_routerWake {router s} : exec (.routerWake router) s = execRouterWake router s := rfl
@[simp] theorem exec_sliceServe {slice s} : exec (.sliceServe slice) s = execSliceServe slice s := rfl
@[simp] theorem exec_sliceApply {slice s} : exec (.sliceApply slice) s = execSliceApply slice s := rfl
@[simp] theorem exec_cxlSend {link s} : exec (.cxlSend link) s = execCxlSend link s := rfl
@[simp] theorem exec_cxlResponseTimeout {link s} : exec (.cxlResponseTimeout link) s = execCxlResponseTimeout link s := rfl
@[simp] theorem exec_fabricEgressGrant {port s} : exec (.fabricEgressGrant port) s = execFabricEgressGrant port s := rfl
@[simp] theorem exec_fabricPortTimeout {port s} : exec (.fabricPortTimeout port) s = execFabricPortTimeout port s := rfl
@[simp] theorem exec_fabricLinkDown {port s} : exec (.fabricLinkDown port) s = execFabricLinkDown port s := rfl
@[simp] theorem exec_fabricLinkReturn {port s} : exec (.fabricLinkReturn port) s = execFabricLinkReturn port s := rfl
@[simp] theorem exec_flitRetransmit {port s} : exec (.flitRetransmit port) s = execFlitRetransmit port s := rfl
@[simp] theorem exec_portSwitchRelease {node s} : exec (.portSwitchRelease node) s = execPortSwitchRelease node s := rfl
@[simp] theorem exec_submission {part queue offset bytes s} : exec (.submission part queue offset bytes) s = execSubmission part queue offset bytes s := rfl
@[simp] theorem exec_packetStart {part queue s} : exec (.packetStart part queue) s = execPacketStart part queue s := rfl
@[simp] theorem exec_packetComplete {part queue s} : exec (.packetComplete part queue) s = execPacketComplete part queue s := rfl
@[simp] theorem exec_launchPacket {part queue s} : exec (.launchPacket part queue) s = execLaunchPacket part queue s := rfl
@[simp] theorem exec_copyPacket {part queue s} : exec (.copyPacket part queue) s = execCopyPacket part queue s := rfl
@[simp] theorem exec_signalPacket {part queue s} : exec (.signalPacket part queue) s = execSignalPacket part queue s := rfl
@[simp] theorem exec_installPacket {part queue s} : exec (.installPacket part queue) s = execInstallPacket part queue s := rfl
@[simp] theorem exec_removeHandle {part queue s} : exec (.removeHandle part queue) s = execRemoveHandle part queue s := rfl
@[simp] theorem exec_queryQuote {part queue s} : exec (.queryQuote part queue) s = execQueryQuote part queue s := rfl
@[simp] theorem exec_queryIdentity {part queue s} : exec (.queryIdentity part queue) s = execQueryIdentity part queue s := rfl
@[simp] theorem exec_queryRevision {part queue s} : exec (.queryRevision part queue) s = execQueryRevision part queue s := rfl
@[simp] theorem exec_dispatchConsider {part s} : exec (.dispatchConsider part) s = execDispatchConsider part s := rfl
@[simp] theorem exec_gangToPending {s} : exec (.gangToPending) s = execGangToPending s := rfl
@[simp] theorem exec_pendingEntersActive {s} : exec (.pendingEntersActive) s = execPendingEntersActive s := rfl
@[simp] theorem exec_activeRotationOut {s} : exec (.activeRotationOut) s = execActiveRotationOut s := rfl
@[simp] theorem exec_childStart {part s} : exec (.childStart part) s = execChildStart part s := rfl
@[simp] theorem exec_preemptStop {cohort s} : exec (.preemptStop cohort) s = execPreemptStop cohort s := rfl
@[simp] theorem exec_quiesce {cohort s} : exec (.quiesce cohort) s = execQuiesce cohort s := rfl
@[simp] theorem exec_saveReport {cohort s} : exec (.saveReport cohort) s = execSaveReport cohort s := rfl
@[simp] theorem exec_restore {cohort s} : exec (.restore cohort) s = execRestore cohort s := rfl
@[simp] theorem exec_preempt {part queue seq cohort s} : exec (.preempt part queue seq cohort) s = execPreempt part queue seq cohort s := rfl
@[simp] theorem exec_resume {part queue seq cohort s} : exec (.resume part queue seq cohort) s = execResume part queue seq cohort s := rfl
@[simp] theorem exec_endLaunch {part queue seq s} : exec (.endLaunch part queue seq) s = execEndLaunch part queue seq s := rfl
@[simp] theorem exec_inval {part pasid first bytes s} : exec (.inval part pasid first bytes) s = execInval part pasid first bytes s := rfl
@[simp] theorem exec_revoke {part pasid s} : exec (.revoke part pasid) s = execRevoke part pasid s := rfl
@[simp] theorem exec_allow {part pasid s} : exec (.allow part pasid) s = execAllow part pasid s := rfl
@[simp] theorem exec_qpri {part queue priority s} : exec (.qpri part queue priority) s = execQpri part queue priority s := rfl
@[simp] theorem exec_halt {part s} : exec (.halt part) s = execHalt part s := rfl
@[simp] theorem exec_swap {part image s} : exec (.swap part image) s = execSwap part image s := rfl
@[simp] theorem exec_commandDone {part s} : exec (.commandDone part) s = execCommandDone part s := rfl
@[simp] theorem exec_invalidationComplete {part s} : exec (.invalidationComplete part) s = execInvalidationComplete part s := rfl
@[simp] theorem exec_hostMemoryRequest {req s} : exec (.hostMemoryRequest req) s = execHostMemoryRequest req s := rfl
@[simp] theorem exec_controlAccessRefused {part offset len write s} : exec (.controlAccessRefused part offset len write) s = execControlAccessRefused part offset len write s := rfl
@[simp] theorem exec_interruptRemapWrite {part vector word value s} : exec (.interruptRemapWrite part vector word value) s = execInterruptRemapWrite part vector word value s := rfl
@[simp] theorem exec_registerWrite {src offset value s} : exec (.registerWrite src offset value) s = execRegisterWrite src offset value s := rfl
@[simp] theorem exec_portenWrite {src value s} : exec (.portenWrite src value) s = execPortenWrite src value s := rfl
@[simp] theorem exec_extend {src index s} : exec (.extend src index) s = execExtend src index s := rfl
@[simp] theorem exec_powerUp {s} : exec (.powerUp) s = execPowerUp s := rfl
@[simp] theorem exec_bootImageWrite {offset bytes s} : exec (.bootImageWrite offset bytes) s = execBootImageWrite offset bytes s := rfl
@[simp] theorem exec_nodeWordWrite {value s} : exec (.nodeWordWrite value) s = execNodeWordWrite value s := rfl
@[simp] theorem exec_bootStatusWrite {src value s} : exec (.bootStatusWrite src value) s = execBootStatusWrite src value s := rfl
@[simp] theorem exec_imageVerified {s} : exec (.imageVerified) s = execImageVerified s := rfl
@[simp] theorem exec_equinoxClockChange {part s} : exec (.equinoxClockChange part) s = execEquinoxClockChange part s := rfl
@[simp] theorem exec_thermalThrottle {die start s} : exec (.thermalThrottle die start) s = execThermalThrottle die start s := rfl
@[simp] theorem exec_errorRecord {cls part unit count addr s} : exec (.errorRecord cls part unit count addr) s = execErrorRecord cls part unit count addr s := rfl
@[simp] theorem exec_partitionSetup {src n offset value s} : exec (.partitionSetup src n offset value) s = execPartitionSetup src n offset value s := rfl

end Sys2Proof.Machine
end

