-- ==== Sys2Proof/Laws/Issue.lean ====
section
/-! SUPPORT. What the issue of a word answers: one lemma for each way it can end, for each format class. -/
namespace Sys2Proof.Machine

open Sys2Proof

/-- A word that nothing stops has the effect of its body. -/
theorem issueV_ok {v0 v : View} {s : State} {also : Also} {body : State → Except Flt (State × Flow)} {u : State} {fl : Flow}
    (hd : decodeFault s.g v0 v = none) (hf : (s.pair s.coh.pair).allFree s.g.core (s.units v also) = true)
    (hs : s.g.checks = true → s.short v also = none) (hb : body (s.fixRead v also) = .ok (u, fl)) :
    issueV v0 v s also body = .next (finish s v also u fl) := by
  have h : (if s.g.checks then s.short v also else none) = none := by
    split
    · exact hs ‹_›
    · rfl
  simp only [issueV, hd, hf, h, hb, Bool.not_true, Bool.false_eq_true, if_false]

/-- A word that nothing stops but whose body faults traps. -/
theorem issueV_error {v0 v : View} {s : State} {also : Also} {body : State → Except Flt (State × Flow)} {e : Flt}
    (hd : decodeFault s.g v0 v = none) (hf : (s.pair s.coh.pair).allFree s.g.core (s.units v also) = true)
    (hs : s.g.checks = true → s.short v also = none) (hb : body (s.fixRead v also) = .error e) :
    issueV v0 v s also body = .next (takeTrap s.takeIssue e (wordOf v0) (litOf v0)) := by
  have h : (if s.g.checks then s.short v also else none) = none := by
    split
    · exact hs ‹_›
    · rfl
  simp only [issueV, hd, hf, h, hb, Bool.not_true, Bool.false_eq_true, if_false]

/-- A decode fault traps before anything else (R40, R41). -/
theorem issueV_decode {v0 v : View} {s : State} {also : Also} {body : State → Except Flt (State × Flow)} {e : Flt}
    (hd : decodeFault s.g v0 v = some e) :
    issueV v0 v s also body = .next (takeTrap s.takeIssue e (wordOf v0) (litOf v0)) := by
  simp only [issueV, hd]

/-- An occupied unit holds the word for a cycle or more (R34). -/
theorem issueV_busy {v0 v : View} {s : State} {also : Also} {body : State → Except Flt (State × Flow)}
    (hd : decodeFault s.g v0 v = none) (hf : (s.pair s.coh.pair).allFree s.g.core (s.units v also) = false) :
    issueV v0 v s also body =
      .next (goOn s v s.g.here.pc (.later ((s.pair s.coh.pair).freeAt s.g.core (s.units v also)))) := by
  simp only [issueV, hd, hf, Bool.not_false, if_true]

/-- In text that its programmer wrote, STALL_SHORT traps before the body (R41). -/
theorem issueV_short {v0 v : View} {s : State} {also : Also} {body : State → Except Flt (State × Flow)} {d : Nat}
    (hd : decodeFault s.g v0 v = none) (hf : (s.pair s.coh.pair).allFree s.g.core (s.units v also) = true)
    (hc : s.g.chk = true) (hw : s.g.kn.waits = false) (hs : s.short v also = some d) :
    issueV v0 v s also body = .next (takeTrap s.takeIssue ⟨.stallShort, d, 0⟩ (wordOf v0) (litOf v0)) := by
  simp only [issueV, Gang.checks, hd, hf, hc, hw, hs, Bool.or_false, if_true, Bool.not_true, Bool.false_eq_true, if_false]

/-- Text that Oliesh wrote waits instead (R39, R409). -/
theorem issueV_waits {v0 v : View} {s : State} {also : Also} {body : State → Except Flt (State × Flow)} {d : Nat}
    (hd : decodeFault s.g v0 v = none) (hf : (s.pair s.coh.pair).allFree s.g.core (s.units v also) = true)
    (hw : s.g.kn.waits = true) (hs : s.short v also = some d) :
    issueV v0 v s also body = .next (goOn s v s.g.here.pc (.later (s.cyc + 1))) := by
  simp only [issueV, Gang.checks, hd, hf, hw, hs, Bool.or_true, if_true, Bool.not_true, Bool.false_eq_true, if_false]

/-- Every issue answers a next state. -/
theorem issueV_next (v0 v : View) (s : State) (also : Also) (body : State → Except Flt (State × Flow)) :
    ∃ t, issueV v0 v s also body = .next t := by
  unfold issueV
  dsimp only
  split
  · exact ⟨_, rfl⟩
  · split
    · exact ⟨_, rfl⟩
    · split <;> split <;> exact ⟨_, rfl⟩

theorem issueWith_ok {op : Nat} {f : Fields} {s : State} {also : State → Fields → Also}
    {body : State → Fields → Except Flt (State × Flow)} {u : State} {fl : Flow} (h : s.letsF op f also)
    (hb : body (s.readsF op f also) (s.stepped f) = .ok (u, fl)) : issueWith op f s also body = .next (s.pastF u op f fl also) :=
  issueV_ok (body := fun s' => body s' (s.stepped f)) h.1 h.2.1 h.2.2 hb

theorem issueWith_error {op : Nat} {f : Fields} {s : State} {also : State → Fields → Also}
    {body : State → Fields → Except Flt (State × Flow)} {e : Flt} (h : s.letsF op f also)
    (hb : body (s.readsF op f also) (s.stepped f) = .error e) :
    issueWith op f s also body = .next (takeTrap s.land.takeIssue e (wordOf (.cf op f)) (litOf (.cf op f))) :=
  issueV_error (body := fun s' => body s' (s.stepped f)) h.1 h.2.1 h.2.2 hb

theorem issueF_ok {op : Nat} {f : Fields} {s : State} {body : State → Fields → Except Flt (State × Flow)} {u : State} {fl : Flow}
    (h : s.letsF op f) (hb : body (s.readsF op f) (s.stepped f) = .ok (u, fl)) : issueF op f s body = .next (s.pastF u op f fl) :=
  issueWith_ok h hb

theorem issueF_error {op : Nat} {f : Fields} {s : State} {body : State → Fields → Except Flt (State × Flow)} {e : Flt}
    (h : s.letsF op f) (hb : body (s.readsF op f) (s.stepped f) = .error e) :
    issueF op f s body = .next (takeTrap s.land.takeIssue e (wordOf (.cf op f)) (litOf (.cf op f))) := issueWith_error h hb

theorem issueF_next (op : Nat) (f : Fields) (s : State) (body : State → Fields → Except Flt (State × Flow)) :
    ∃ t, issueF op f s body = .next t := issueV_next _ _ _ _ fun s' => body s' (s.stepped f)

theorem issueJ_ok {op : Nat} {f : JFields} {s : State} {body : State → Except Flt (State × Flow)} {u : State} {fl : Flow}
    (h : s.letsJ op f) (hb : body (s.readsJ op f) = .ok (u, fl)) : issueJ op f s body = .next (s.pastJ u op f fl) :=
  issueV_ok h.1 h.2.1 h.2.2 hb

theorem issueJ_error {op : Nat} {f : JFields} {s : State} {body : State → Except Flt (State × Flow)} {e : Flt}
    (h : s.letsJ op f) (hb : body (s.readsJ op f) = .error e) :
    issueJ op f s body = .next (takeTrap s.land.takeIssue e (wordOf (.cj op f)) (litOf (.cj op f))) :=
  issueV_error h.1 h.2.1 h.2.2 hb

theorem issueS_ok {op : Nat} {f : SFields} {s : State} {body : State → Except Flt (State × Flow)} {u : State} {fl : Flow}
    (h : s.letsS op f) (hb : body (s.readsS op f) = .ok (u, fl)) : issueS op f s body = .next (s.pastS u op f fl) :=
  issueV_ok h.1 h.2.1 h.2.2 hb

theorem issueQ_ok {f : QFields} {s : State} {body : State → Except Flt (State × Flow)} {u : State} {fl : Flow}
    (h : s.letsQ f) (hb : body (s.readsQ f) = .ok (u, fl)) : issueQ f s body = .next (s.pastQ u f fl) :=
  issueV_ok h.1 h.2.1 h.2.2 hb

/-! ## Bodies -/

/-- The header of a word is not stepped. -/
@[simp] theorem stepFields_h (r : Rep) (f : Fields) : (stepFields r f).h = f.h := by
  unfold stepFields
  split <;> rfl

@[simp] theorem stepped_h (s : State) (f : Fields) : (s.stepped f).h = f.h := stepFields_h _ _

/-- The literal of a word is not stepped. -/
@[simp] theorem stepFields_lit (r : Rep) (f : Fields) : (stepFields r f).lit = f.lit := by
  unfold stepFields
  split <;> rfl

/-- MINOR is not stepped. -/
@[simp] theorem stepFields_minor (r : Rep) (f : Fields) : (stepFields r f).minor = f.minor := by
  unfold stepFields
  split <;> rfl

/-- Without a repeat in progress the fields stand as they are (R62). -/
theorem stepFields_none {r : Rep} (h : r.nrep = 0) (f : Fields) : stepFields r f = f := if_pos h

/-- A gang-uniform body that acts (R89). -/
theorem uniform_acts {h : Hdr} {body : State → Except Flt (State × Flow)} {s : State} (ha : s.acts h = true) :
    uniform h body s = body s := by simp only [uniform, ha, if_true]

/-- A gang-uniform body whose guard is false in every active lane (R89). -/
theorem uniform_skips {h : Hdr} {body : State → Except Flt (State × Flow)} {s : State} (ha : s.acts h = false) :
    uniform h body s = .ok (s, .seq 1) := by simp only [uniform, ha, Bool.false_eq_true, if_false]

/-- A memory access that nothing holds (R231, R247). -/
theorem memAccess_free {s : State} {body : State → Except Flt (State × Flow)} (h : s.acqHold = none) :
    memAccess s body = body s := by simp only [memAccess, h]

/-- A scalar word whose one effect is a register result. -/
theorem issueScalar_ok {op : Nat} {f : Fields} {s : State} {res : State → Fields → List Pend} (h : s.letsF op f)
    (ha : (s.readsF op f).acts f.h = true) :
    issueScalar op f s res = .next (s.pastF ((s.readsF op f).addPends (res (s.readsF op f) (s.stepped f))) op f (.seq 1)) := by
  have ha' : (s.readsF op f).acts (s.stepped f).h = true := by rw [stepped_h]; exact ha
  unfold issueScalar
  refine issueF_ok h ?_
  exact uniform_acts ha'

/-- A lane word whose one effect is register results. -/
theorem issueLane_ok {op : Nat} {f : Fields} {s : State} {draws : Fields → Nat} {res : State → Fields → List Pend}
    (h : s.letsF op f) :
    issueLane op f s draws res =
      .next (s.pastF (((s.readsF op f).draw f.h (s.stepped f).rnd (draws (s.stepped f))).addPends (res (s.readsF op f) (s.stepped f))) op f
        (.seq (s.readsF op f).g.passes)) := by
  unfold issueLane
  refine issueF_ok h ?_
  rw [stepped_h]

/-! ## Engine operations -/

theorem addPend_mem (x : Pend) : ∀ ps : List Pend, x ∈ addPend ps x
  | [] => by simp [addPend]
  | y :: ys => by
    simp only [addPend]
    split
    · simp
    · simp [addPend_mem x ys]

theorem addPend_keeps (x z : Pend) : ∀ ps : List Pend, z ∈ ps → z ∈ addPend ps x
  | [], h => by simp at h
  | y :: ys, h => by
    simp only [addPend]
    split
    · simp only [List.mem_cons] at h ⊢; exact .inr h
    · simp only [List.mem_cons] at h ⊢
      exact h.imp id (addPend_keeps x z ys)

theorem addPend_only (x z : Pend) : ∀ ps : List Pend, z ∈ addPend ps x → z ∈ ps ∨ z = x
  | [], h => by simp only [addPend, List.mem_singleton] at h; exact .inr h
  | y :: ys, h => by
    simp only [addPend] at h
    split at h
    · simp only [List.mem_cons] at h ⊢
      rcases h with h | h | h
      · exact .inr h
      · exact .inl (.inl h)
      · exact .inl (.inr h)
    · simp only [List.mem_cons] at h ⊢
      rcases h with h | h
      · exact .inl (.inl h)
      · exact (addPend_only x z ys h).imp .inr id

/-- Only what is added comes to the results in flight. -/
theorem addPends_only (s : State) (x z : Pend) (h : z ∈ (s.addPends [x]).g.pend) : z ∈ s.g.pend ∨ z = x := by
  simp only [State.addPends, Gang.addPends, List.foldl] at h
  exact addPend_only x z _ h

/-- A result added to those in flight is in flight. -/
theorem addPends_one (s : State) (x : Pend) : x ∈ (s.addPends [x]).g.pend := by
  simp only [State.addPends, Gang.addPends, List.foldl]
  exact addPend_mem x _

/-- The registers that a new operation leaves as they are. -/
theorem keepsRegs_op (s : State) (ops : List Op) (locks : List Lock) (n tag : Nat) (e : PEntry) (o : Op) (ps : List Pend) :
    keepsRegs s ((({ s with ops := ops, locks := locks, nextOp := n, g := { s.g.setEntry tag e with lastTag := some tag } } :
      State).setOp o).addPends ps) := by
  unfold keepsRegs State.addPends State.setOp Gang.addPends Gang.setEntry
  dsimp only
  exact ⟨rfl, rfl, rfl, rfl, rfl, rfl, rfl, rfl, rfl, rfl, rfl, rfl, rfl, rfl, rfl⟩

theorem keepsRegs_done (s : State) (tag : Nat) (e : PEntry) (ps : List Pend) :
    keepsRegs s (({ s with g := { s.g.setEntry tag e with lastTag := some tag } } : State).addPends ps) := by
  unfold keepsRegs State.addPends Gang.addPends Gang.setEntry
  dsimp only
  exact ⟨rfl, rfl, rfl, rfl, rfl, rfl, rfl, rfl, rfl, rfl, rfl, rfl, rfl, rfl, rfl⟩

/-- What else a new operation leaves. -/
theorem fields_op (s : State) (ops : List Op) (locks : List Lock) (n tag : Nat) (e : PEntry) (o : Op) (ps : List Pend) :
    let u := (({ s with ops := ops, locks := locks, nextOp := n, g := { s.g.setEntry tag e with lastTag := some tag } } : State).setOp o).addPends ps
    u.nextOp = n ∧ u.locks = locks ∧ u.g.lastTag = some tag ∧ u.g.prom = s.g.prom.set tag e ∧ u.mem = s.mem ∧ u.spad = s.spad ∧
      u.parts = s.parts ∧ u.pairs = s.pairs := by
  unfold State.addPends State.setOp Gang.addPends Gang.setEntry
  dsimp only
  exact ⟨rfl, rfl, rfl, rfl, rfl, rfl, rfl, rfl⟩

/-- The results in flight with a new operation. -/
theorem pend_op (s : State) (ops : List Op) (locks : List Lock) (n tag : Nat) (e : PEntry) (o : Op) (x : Pend) :
    ∀ p ∈ ((({ s with ops := ops, locks := locks, nextOp := n, g := { s.g.setEntry tag e with lastTag := some tag } } :
      State).setOp o).addPends [x]).g.pend, p ∈ s.g.pend ∨ p = x := fun p hp => addPends_only _ x p hp

/-- An operation that its engine takes is in flight, with its tag, locks and promise (R248 to R251, R257). -/
theorem issueOp_takes {s : State} {d : BitVec 9} {o : Op} {locks : List Lock} {t : Nat} {never : Bool}
    (h : s.takes o.eng locks) (hid : o.id = s.nextOp) (hc : o.cohort = s.g.cohort) (hf : o.f2 = s.g.f2) (hs : o.slot = s.g.tag) :
    ∃ u p, s.issueOp d o locks t never = (u, .seq 1) ∧ issued s u o.eng locks d p ∧
      p = { o with tag := p.tag, time := p.time, waited := p.waited } ∧ u.parts = s.parts ∧ u.pairs = s.pairs := by
  obtain ⟨h1, h2, h3⟩ := h
  have h1' : ¬(engLimit o.eng ≤ s.engCount o.eng) := Nat.not_le.mpr h1
  simp only [State.issueOp, h2, h3, ge_iff_le, h1', decide_false, Bool.not_true, Bool.or_self, Bool.false_eq_true, if_false]
  generalize (if never then neverTime s.g.issues else s.g.timeFor s.g.nextTag o.eng t) = time
  generalize State.lockWaits _ _ = w
  obtain ⟨e1, e2, e3, e4, e5, e6, e7, e8⟩ := fields_op s (s.ops ++ [{ o with tag := s.g.nextTag, time := time }]) (s.locks ++ locks)
    (s.nextOp + 1) s.g.nextTag { PEntry.free with st := .inFlight, eng := o.eng, time, cur := time, opreg := o.opreg, status := 0xFF, items := o.items.length }
    { o with tag := s.g.nextTag, time := time, waited := !w } [s.result (s.cyc + 8) (.s (sIdx d)) (promiseWord o.eng s.g.nextTag time)]
  refine ⟨_, { o with tag := s.g.nextTag, time := time, waited := !w }, rfl, ⟨?_, ?_, hid, e1, rfl, rfl, hc, hf, hs, e2, e3, e4,
    addPends_one _ _, e5, e6, ?_, keepsRegs_op _ _ _ _ _ _ _ _⟩, rfl, e7, e8⟩
  · simp [State.addPends, State.setOp]
  · simp only [State.addPends, State.setOp, List.map_map]
    rw [← hid, List.map_append]
    congr 1
    · refine List.map_congr_left fun x _ => ?_
      simp only [Function.comp]
      split
      · rename_i hx; exact (beq_iff_eq.mp hx).symm
      · rfl
    · simp
  · intro z hz
    refine (pend_op _ _ _ _ _ _ _ _ z hz).imp id fun e => ?_
    rw [e]
    rfl

/-- A keyed list gives back what it was set to. -/
theorem assoc_assocSet {α : Type} (k : Nat) (x d : α) : ∀ l : List (Nat × α), assoc (assocSet l k x) k d = x
  | [] => by simp [assoc, assocSet]
  | (j, y) :: l => by
    simp only [assocSet]
    split
    · simp [assoc]
    · rename_i h
      have ih := assoc_assocSet k x d l
      simp only [assoc, List.find?_cons, beq_eq_false_iff_ne.mpr h] at ih ⊢
      exact ih

/-- As `issueOp_takes`, with the slack class and the time of R251. -/
theorem issueEst_takes {s : State} {f : Fields} {o : Op} {locks : List Lock} {est : Nat} {never : Bool}
    (h : s.takes o.eng locks) (hid : o.id = s.nextOp) (hc : o.cohort = s.g.cohort) (hf : o.f2 = s.g.f2) (hs : o.slot = s.g.tag) :
    ∃ u p, s.issueEst f o locks est never = (u, .seq 1) ∧ issued s u o.eng locks f.d p ∧
      p = { o with tag := p.tag, time := p.time, waited := p.waited, slack := p.slack, bg := p.bg } ∧
      u.parts = s.parts ∧ u.pairs = s.pairs := by
  unfold State.issueEst
  generalize slackOf s.g.slackdef f.slk est = x
  obtain ⟨sl, bg⟩ := x
  obtain ⟨u, p, h1, h2, h3, h4⟩ := issueOp_takes (s := s) (d := f.d) (o := { o with slack := sl, bg := bg }) (locks := locks)
    (t := s.now + min (est + 4 * sl) (2 ^ 46)) (never := never || s.background f.slk) h hid hc hf hs
  refine ⟨u, p, h1, h2, ?_, h4⟩
  rw [h3]

/-- A word of engine 5 with nothing to do completes at issue (R315). -/
theorem issueDone_free {s : State} {f : Fields} (h : s.tagFree) :
    ∃ u, s.issueDone f 5 = (u, .seq 1) ∧ doneAtIssue s u f.d := by
  have h' : (s.g.prom.getD s.g.nextTag .free).open_ = false := h
  simp only [State.issueDone, h', Bool.false_eq_true, if_false]
  exact ⟨_, rfl, rfl, rfl, rfl, rfl, rfl, fun z hz => (addPends_only _ _ z hz).imp id fun e => .inl (by rw [e]; rfl),
    keepsRegs_done _ _ _ _, _, rfl, rfl, rfl, addPends_one _ _⟩

/-- What `goOn` leaves of the registers. -/
theorem keepsRegs_goOn {v t : State} {w : View} {pc : Nat} {n : Nat} (h : keepsRegs v t) : keepsRegs v (goOn t w pc (.seq n)) := by
  obtain ⟨h1, h2, h3, h4, h5, h6, h7, h8, h9, h10, h11, h12, h13, h14, h15⟩ := h
  unfold goOn countIssue countRegion State.setHere Gang.setHere Gang.setSlot
  refine ⟨?_, ?_, ?_, ?_, ?_, ?_, ?_, ?_, ?_, ?_, ?_, ?_, ?_, ?_, h15⟩
  all_goals
    dsimp only
    split <;> assumption

/-- What `goOn` leaves of an operation's issue. -/
theorem issued_goOn {v t : State} {eng : Nat} {locks : List Lock} {d : BitVec 9} {o : Op} {w : View} {pc : Nat} {n : Nat}
    (h : issued v t eng locks d o) : issued v (goOn t w pc (.seq n)) eng locks d o := by
  obtain ⟨h1, h2, h3, h4, h5, h6, h7, h8, h9, h10, h11, h12, h13, h14, h15, h16, h17⟩ := h
  have h17 := keepsRegs_goOn (w := w) (pc := pc) (n := n) h17
  revert h17
  unfold goOn countIssue countRegion State.setHere Gang.setHere Gang.setSlot
  intro h17
  refine ⟨h1, h2, h3, h4, h5, h6, h7, h8, h9, h10, ?_, ?_, ?_, h14, h15, ?_, h17⟩
  all_goals
    dsimp only
    split <;> assumption

/-- What `goOn` leaves of a completion at issue. -/
theorem doneAtIssue_goOn {v t : State} {d : BitVec 9} {w : View} {pc : Nat} {n : Nat}
    (h : doneAtIssue v t d) : doneAtIssue v (goOn t w pc (.seq n)) d := by
  obtain ⟨h1, h2, h3, h4, h5, h10, h11, e, h6, h7, h8, h9⟩ := h
  have h11 := keepsRegs_goOn (w := w) (pc := pc) (n := n) h11
  revert h11
  unfold goOn countIssue countRegion State.setHere Gang.setHere Gang.setSlot
  intro h11
  refine ⟨h1, h2, ?_, h4, h5, ?_, h11, e, h6, h7, ?_, ?_⟩
  all_goals
    dsimp only
    split <;> assumption

/-- Units that are taken change nothing that these say. -/
theorem issued_take {v t : State} {eng : Nat} {locks : List Lock} {d : BitVec 9} {o : Op} {us : List (ExecUnit × Nat)}
    (h : issued v t eng locks d o) : issued v (t.take us) eng locks d o := h
theorem doneAtIssue_take {v t : State} {d : BitVec 9} {us : List (ExecUnit × Nat)} (h : doneAtIssue v t d) :
    doneAtIssue v (t.take us) d := h
theorem keepsRegs_take {v t : State} {us : List (ExecUnit × Nat)} (h : keepsRegs v t) : keepsRegs v (t.take us) := h

/-- What `finish` leaves of an operation's issue, of a completion at issue and of the registers. -/
theorem issued_finish {v t s : State} {eng : Nat} {locks : List Lock} {d : BitVec 9} {o : Op} {w : View} {also : Also} {n : Nat}
    (h : issued v t eng locks d o) : issued v (finish s w also t (.seq n)) eng locks d o := issued_goOn (issued_take h)
theorem doneAtIssue_finish {v t s : State} {d : BitVec 9} {w : View} {also : Also} {n : Nat} (h : doneAtIssue v t d) :
    doneAtIssue v (finish s w also t (.seq n)) d := doneAtIssue_goOn (doneAtIssue_take h)
theorem keepsRegs_finish {v t s : State} {w : View} {also : Also} {n : Nat} (h : keepsRegs v t) :
    keepsRegs v (finish s w also t (.seq n)) := keepsRegs_goOn (keepsRegs_take h)

/-- A matrix operation that its queue takes (R306, R313). -/
theorem matIssue_takes {s : State} {f : Fields} {o : Op} {locks : List Lock} {dur : Nat} (h : s.takes 5 locks) (he : o.eng = 5)
    (hid : o.id = s.nextOp) (hc : o.cohort = s.g.cohort) (hf : o.f2 = s.g.f2) (hs : o.slot = s.g.tag) :
    ∃ u p, s.matIssue f o locks dur = (u, .seq 1) ∧ issued s u 5 locks f.d p ∧
      p = { o with tag := p.tag, time := p.time, waited := true, dur := dur, bytes := p.bytes } ∧
      (u.pair s.coh.pair).matq = (s.pair s.coh.pair).matq ++ [s.nextOp] := by
  unfold State.matIssue
  obtain ⟨u, p, h1, h2, h3, h4, h5⟩ := issueOp_takes (s := s) (d := f.d) (o := { o with dur := dur, bytes := s.queueLeft + dur })
    (locks := locks) (t := s.matTime dur) (never := false) (by rw [← he] at h; exact h) hid hc hf hs
  rw [h1]
  obtain ⟨a1, a2, a3, a4, a5, a6, a7, a8, a9, a10, a11, a12, a13, a14, a15, a16, a17⟩ := h2
  refine ⟨_, { p with waited := true }, rfl, ⟨?_, ?_, a3, a4, a5.trans he, a6, a7, a8, a9, a10, a11, ?_, ?_, a14, a15, a16, a17⟩, ?_, ?_⟩
  · simp only [List.mem_map]
    exact ⟨p, a1, by rw [if_pos (by rw [a3, ← hid])]⟩
  · have : ∀ l : List Op, (l.map fun x => if x.id = o.id then { x with waited := true } else x).map (·.id) = l.map (·.id) := by
      intro l
      rw [List.map_map]
      refine List.map_congr_left fun x _ => ?_
      simp only [Function.comp]
      split <;> rfl
    exact (this _).trans a2
  · rw [he] at a12; exact a12
  · rw [he] at a13; exact a13
  · rw [h3]
  · simp only [State.setPair, State.pair]
    rw [h5, assoc_assocSet, hid]

end Sys2Proof.Machine
end

