-- ==== Sys2Proof/Laws/Memory.lean ====
section
/-! SUPPORT. Sparse memories: every operation keeps the canonical form (log 3), and one byte written is read back. -/
namespace Sys2Proof.Machine

open Sys2Proof

/-! ## The canonical form -/

theorem Memory.above_iff {a : Nat} {m : Memory} : Memory.above a m = true ↔ ∀ c ∈ m, a < c.1 := by
  simp [Memory.above, List.all_eq_true]

theorem Memory.wf_cons {a : Nat} {x : Byte} {m : Memory} :
    Memory.wf ((a, x) :: m) = true ↔ x ≠ 0 ∧ (∀ c ∈ m, a < c.1) ∧ m.wf = true := by
  simp [Memory.wf, Memory.above_iff, and_assoc]

/-- No address is listed in what is written elsewhere but the ones listed before, and the one written. -/
theorem Memory.mem_write {m : Memory} {a : Nat} {x : Byte} {c : Nat × Byte} (h : c ∈ m.write a x) : c ∈ m ∨ c = (a, x) := by
  induction m with
  | nil =>
    simp only [Memory.write] at h
    split at h
    · simp at h
    · simp only [List.mem_singleton] at h; exact .inr h
  | cons y ys ih =>
    obtain ⟨b, y⟩ := y
    simp only [Memory.write] at h
    split at h
    · rw [List.mem_cons] at h ⊢
      rcases h with h | h
      · exact .inl (.inl h)
      · exact (ih h).imp .inr id
    · split at h
      · split at h
        · exact .inl (List.mem_cons_of_mem _ h)
        · rw [List.mem_cons] at h
          exact h.symm.imp (List.mem_cons_of_mem _) id
      · split at h
        · exact .inl h
        · rw [List.mem_cons] at h
          exact h.symm

/-- A write keeps the canonical form. -/
theorem Memory.wf_write {m : Memory} (a : Nat) (x : Byte) (h : m.wf = true) : (m.write a x).wf = true := by
  induction m with
  | nil =>
    simp only [Memory.write]
    split
    · rfl
    · rename_i hx; exact Memory.wf_cons.mpr ⟨hx, by simp, rfl⟩
  | cons y ys ih =>
    obtain ⟨b, y⟩ := y
    obtain ⟨h1, h2, h3⟩ := Memory.wf_cons.mp h
    simp only [Memory.write]
    split
    · rename_i hb
      refine Memory.wf_cons.mpr ⟨h1, fun c hc => ?_, ih h3⟩
      rcases Memory.mem_write hc with hc | rfl
      · exact h2 c hc
      · exact hb
    · split
      · rename_i _ hb
        split
        · exact h3
        · rename_i hx
          exact Memory.wf_cons.mpr ⟨hx, fun c hc => hb ▸ h2 c hc, h3⟩
      · rename_i h4 h5
        split
        · exact h
        · rename_i hx
          refine Memory.wf_cons.mpr ⟨hx, fun c hc => ?_, h⟩
          rw [List.mem_cons] at hc
          rcases hc with rfl | hc
          · exact Nat.lt_of_le_of_ne (Nat.le_of_not_lt h4) (fun e => h5 e.symm)
          · exact Nat.lt_trans (Nat.lt_of_le_of_ne (Nat.le_of_not_lt h4) (fun e => h5 e.symm)) (h2 c hc)

/-- Writes one after another keep it. -/
theorem Memory.wf_foldl_write {α : Type} (f : α → Nat × Byte) (xs : List α) {m : Memory} (h : m.wf = true) :
    (xs.foldl (fun m x => m.write (f x).1 (f x).2) m).wf = true := by
  induction xs generalizing m with
  | nil => exact h
  | cons x xs ih => exact ih (Memory.wf_write _ _ h)

/-- Leaving entries out keeps it. -/
theorem Memory.wf_filter (p : Nat × Byte → Bool) {m : Memory} (h : m.wf = true) : Memory.wf (m.filter p) = true := by
  induction m with
  | nil => rfl
  | cons y ys ih =>
    obtain ⟨b, y⟩ := y
    obtain ⟨h1, h2, h3⟩ := Memory.wf_cons.mp h
    rw [List.filter_cons]
    split
    · exact Memory.wf_cons.mpr ⟨h1, fun c hc => h2 c (List.mem_filter.mp hc).1, ih h3⟩
    · exact ih h3

/-- Memories that lie one above another. -/
theorem Memory.wf_append {m n : Memory} (hm : m.wf = true) (hn : n.wf = true) (h : ∀ c ∈ m, ∀ d ∈ n, c.1 < d.1) :
    Memory.wf (m ++ n) = true := by
  induction m with
  | nil => exact hn
  | cons y ys ih =>
    obtain ⟨b, y⟩ := y
    obtain ⟨h1, h2, h3⟩ := Memory.wf_cons.mp hm
    refine Memory.wf_cons.mpr ⟨h1, fun c hc => ?_, ih h3 fun c hc => h c (List.mem_cons_of_mem _ hc)⟩
    rcases List.mem_append.mp hc with hc | hc
    · exact h2 c hc
    · exact h _ List.mem_cons_self c hc

/-- The entries of a byte string lie in its range. -/
theorem cellsOf_range {a : Nat} {bs : List Byte} {c : Nat × Byte} (h : c ∈ cellsOf a bs) : a ≤ c.1 ∧ c.1 < a + bs.length := by
  induction bs generalizing a with
  | nil => simp [cellsOf] at h
  | cons x xs ih =>
    simp only [cellsOf] at h
    simp only [List.length_cons]
    split at h
    · have := ih h; omega
    · rw [List.mem_cons] at h
      rcases h with rfl | h
      · exact ⟨Nat.le_refl _, by omega⟩
      · have := ih h; omega

theorem cellsOf_wf (a : Nat) (bs : List Byte) : Memory.wf (cellsOf a bs) = true := by
  induction bs generalizing a with
  | nil => rfl
  | cons x xs ih =>
    simp only [cellsOf]
    split
    · exact ih _
    · rename_i hx
      exact Memory.wf_cons.mpr ⟨hx, fun c hc => by have := cellsOf_range hc; omega, ih _⟩

/-- A write of bytes keeps the canonical form. -/
theorem Memory.wf_writeN {m : Memory} (a : Nat) (bs : List Byte) (h : m.wf = true) : (m.writeN a bs).wf = true := by
  refine Memory.wf_append (Memory.wf_append (Memory.wf_filter _ h) (cellsOf_wf _ _) ?_) (Memory.wf_filter _ h) ?_
  · intro c hc d hd
    have := cellsOf_range hd
    have hc := (List.mem_filter.mp hc).2
    simp only [decide_eq_true_eq] at hc
    omega
  · intro c hc d hd
    have hd := (List.mem_filter.mp hd).2
    simp only [decide_eq_true_eq] at hd
    rw [List.mem_append] at hc
    rcases hc with hc | hc
    · have hc := (List.mem_filter.mp hc).2
      simp only [decide_eq_true_eq] at hc
      omega
    · have := cellsOf_range hc
      omega

/-- Replacing a range by cells keeps the canonical form. -/
theorem Memory.wf_replace {m : Memory} (a n : Nat) (cells : Memory) (h : m.wf = true) : (m.replace a n cells).wf = true :=
  Memory.wf_foldl_write id cells (Memory.wf_filter _ h)

/-! ## Reading back -/

/-- An address below every listed one reads as 0. -/
theorem Memory.read_above {m : Memory} {a : Nat} (h : ∀ c ∈ m, a < c.1) : m.read a = 0 := by
  induction m with
  | nil => rfl
  | cons y ys ih =>
    obtain ⟨b, y⟩ := y
    have hb : a < b := h _ List.mem_cons_self
    simp only [Memory.read]
    rw [if_neg (by omega)]
    exact ih fun c hc => h c (List.mem_cons_of_mem _ hc)

/-- A byte written is read back, and every other byte stands. -/
theorem Memory.read_write {m : Memory} (a b : Nat) (x : Byte) (h : m.wf = true) :
    (m.write a x).read b = if b = a then x else m.read b := by
  induction m with
  | nil =>
    simp only [Memory.write]
    split
    · rename_i hx; subst hx; simp [Memory.read]
    · simp only [Memory.read, eq_comm]
  | cons y ys ih =>
    obtain ⟨c, y⟩ := y
    obtain ⟨h1, h2, h3⟩ := Memory.wf_cons.mp h
    simp only [Memory.write]
    split
    · simp only [Memory.read, ih h3]
      split
      · rw [if_neg (by omega)]
      · rfl
    · split
      · rename_i _ hc
        subst hc
        split
        · rename_i hx
          subst hx
          split
          · rename_i e; subst e; exact Memory.read_above h2
          · rename_i e; rw [Memory.read, if_neg (fun f => e f.symm)]
        · simp only [Memory.read, eq_comm]
          split <;> simp_all
      · rename_i h4 h5
        have hac : a < c := Nat.lt_of_le_of_ne (Nat.le_of_not_lt h4) (fun e => h5 e.symm)
        split
        · rename_i hx
          subst hx
          split
          · rename_i e
            subst e
            refine Memory.read_above fun d hd => ?_
            rw [List.mem_cons] at hd
            rcases hd with rfl | hd
            · exact hac
            · exact Nat.lt_trans hac (h2 d hd)
          · rfl
        · rw [Memory.read]
          simp only [eq_comm]

/-! ## Scratchpads -/

/-- The scratchpad of a core is in its canonical form. -/
theorem State.pad_wf {s : State} (h : s.spadOk) (c : Nat) : (s.pad c).wf = true := by
  unfold State.pad assoc
  split
  · rename_i p hp
    exact h _ (List.mem_of_find?_eq_some hp)
  · rfl

theorem mem_assocSet {α : Type} {l : List (Nat × α)} {k : Nat} {x : α} {p : Nat × α} (h : p ∈ assocSet l k x) :
    p ∈ l ∨ p = (k, x) := by
  induction l with
  | nil => simp only [assocSet, List.mem_singleton] at h; exact .inr h
  | cons y ys ih =>
    obtain ⟨j, y⟩ := y
    simp only [assocSet] at h
    split at h
    · rw [List.mem_cons] at h
      exact h.symm.imp (List.mem_cons_of_mem _) id
    · rw [List.mem_cons] at h
      rcases h with rfl | h
      · exact .inl List.mem_cons_self
      · exact (ih h).imp (List.mem_cons_of_mem _) id

/-- Setting a scratchpad to one in canonical form keeps every scratchpad so. -/
theorem State.setPad_ok {s : State} (h : s.spadOk) (c : Nat) {m : Memory} (hm : m.wf = true) : (s.setPad c m).spadOk := by
  intro p hp
  rcases mem_assocSet hp with hp | rfl
  · exact h p hp
  · exact hm

/-- Every scratchpad is in its canonical form, and global memory is, after reset. -/
theorem reset_memOk : State.reset.memOk := rfl
theorem reset_spadOk : State.reset.spadOk := fun _ h => nomatch h

end Sys2Proof.Machine
end

