-- ==== Sys2Proof/Laws/State.lean ====
section
/-! SUPPORT. One lemma per field per update of State, each true by unfolding, so that no later proof opens a record update; and what the
shared operations of traps do. -/
namespace Sys2Proof.Machine

open Sys2Proof

/-! ## State.setCohort -/
section setCohort
variable (s : State) (c : Cohort)
@[simp] theorem State.setCohort_now : (s.setCohort c).now = s.now := rfl
@[simp] theorem State.setCohort_half : (s.setCohort c).half = s.half := rfl
@[simp] theorem State.setCohort_g : (s.setCohort c).g = s.g := rfl
@[simp] theorem State.setCohort_others : (s.setCohort c).others = s.others := rfl
@[simp] theorem State.setCohort_cohorts : (s.setCohort c).cohorts = s.cohorts.map fun d => if d.id == c.id then c else d := rfl
@[simp] theorem State.setCohort_launches : (s.setCohort c).launches = s.launches := rfl
@[simp] theorem State.setCohort_pairs : (s.setCohort c).pairs = s.pairs := rfl
@[simp] theorem State.setCohort_spad : (s.setCohort c).spad = s.spad := rfl
@[simp] theorem State.setCohort_spoison : (s.setCohort c).spoison = s.spoison := rfl
@[simp] theorem State.setCohort_mem : (s.setCohort c).mem = s.mem := rfl
@[simp] theorem State.setCohort_poison : (s.setCohort c).poison = s.poison := rfl
@[simp] theorem State.setCohort_tlb : (s.setCohort c).tlb = s.tlb := rfl
@[simp] theorem State.setCohort_ops : (s.setCohort c).ops = s.ops := rfl
@[simp] theorem State.setCohort_locks : (s.setCohort c).locks = s.locks := rfl
@[simp] theorem State.setCohort_nextOp : (s.setCohort c).nextOp = s.nextOp := rfl
@[simp] theorem State.setCohort_nextId : (s.setCohort c).nextId = s.nextId := rfl
@[simp] theorem State.setCohort_routers : (s.setCohort c).routers = s.routers := rfl
@[simp] theorem State.setCohort_slices : (s.setCohort c).slices = s.slices := rfl
@[simp] theorem State.setCohort_cxl : (s.setCohort c).cxl = s.cxl := rfl
@[simp] theorem State.setCohort_ports : (s.setCohort c).ports = s.ports := rfl
@[simp] theorem State.setCohort_hubLast : (s.setCohort c).hubLast = s.hubLast := rfl
@[simp] theorem State.setCohort_parts : (s.setCohort c).parts = s.parts := rfl
@[simp] theorem State.setCohort_mg : (s.setCohort c).mg = s.mg := rfl
@[simp] theorem State.setCohort_tickAt : (s.setCohort c).tickAt = s.tickAt := rfl
@[simp] theorem State.setCohort_replies : (s.setCohort c).replies = s.replies := rfl
@[simp] theorem State.setCohort_draws : (s.setCohort c).draws = s.draws := rfl
@[simp] theorem State.setCohort_inputs : (s.setCohort c).inputs = s.inputs := rfl
end setCohort

/-! ## State.setPair -/
section setPair
variable (s : State) (n : Nat) (p : Pair)
@[simp] theorem State.setPair_now : (s.setPair n p).now = s.now := rfl
@[simp] theorem State.setPair_half : (s.setPair n p).half = s.half := rfl
@[simp] theorem State.setPair_g : (s.setPair n p).g = s.g := rfl
@[simp] theorem State.setPair_others : (s.setPair n p).others = s.others := rfl
@[simp] theorem State.setPair_cohorts : (s.setPair n p).cohorts = s.cohorts := rfl
@[simp] theorem State.setPair_launches : (s.setPair n p).launches = s.launches := rfl
@[simp] theorem State.setPair_pairs : (s.setPair n p).pairs = assocSet s.pairs n p := rfl
@[simp] theorem State.setPair_spad : (s.setPair n p).spad = s.spad := rfl
@[simp] theorem State.setPair_spoison : (s.setPair n p).spoison = s.spoison := rfl
@[simp] theorem State.setPair_mem : (s.setPair n p).mem = s.mem := rfl
@[simp] theorem State.setPair_poison : (s.setPair n p).poison = s.poison := rfl
@[simp] theorem State.setPair_tlb : (s.setPair n p).tlb = s.tlb := rfl
@[simp] theorem State.setPair_ops : (s.setPair n p).ops = s.ops := rfl
@[simp] theorem State.setPair_locks : (s.setPair n p).locks = s.locks := rfl
@[simp] theorem State.setPair_nextOp : (s.setPair n p).nextOp = s.nextOp := rfl
@[simp] theorem State.setPair_nextId : (s.setPair n p).nextId = s.nextId := rfl
@[simp] theorem State.setPair_routers : (s.setPair n p).routers = s.routers := rfl
@[simp] theorem State.setPair_slices : (s.setPair n p).slices = s.slices := rfl
@[simp] theorem State.setPair_cxl : (s.setPair n p).cxl = s.cxl := rfl
@[simp] theorem State.setPair_ports : (s.setPair n p).ports = s.ports := rfl
@[simp] theorem State.setPair_hubLast : (s.setPair n p).hubLast = s.hubLast := rfl
@[simp] theorem State.setPair_parts : (s.setPair n p).parts = s.parts := rfl
@[simp] theorem State.setPair_mg : (s.setPair n p).mg = s.mg := rfl
@[simp] theorem State.setPair_tickAt : (s.setPair n p).tickAt = s.tickAt := rfl
@[simp] theorem State.setPair_replies : (s.setPair n p).replies = s.replies := rfl
@[simp] theorem State.setPair_draws : (s.setPair n p).draws = s.draws := rfl
@[simp] theorem State.setPair_inputs : (s.setPair n p).inputs = s.inputs := rfl
end setPair

/-! ## State.setPad -/
section setPad
variable (s : State) (c : Nat) (m : Memory)
@[simp] theorem State.setPad_now : (s.setPad c m).now = s.now := rfl
@[simp] theorem State.setPad_half : (s.setPad c m).half = s.half := rfl
@[simp] theorem State.setPad_g : (s.setPad c m).g = s.g := rfl
@[simp] theorem State.setPad_others : (s.setPad c m).others = s.others := rfl
@[simp] theorem State.setPad_cohorts : (s.setPad c m).cohorts = s.cohorts := rfl
@[simp] theorem State.setPad_launches : (s.setPad c m).launches = s.launches := rfl
@[simp] theorem State.setPad_pairs : (s.setPad c m).pairs = s.pairs := rfl
@[simp] theorem State.setPad_spad : (s.setPad c m).spad = assocSet s.spad c m := rfl
@[simp] theorem State.setPad_spoison : (s.setPad c m).spoison = s.spoison := rfl
@[simp] theorem State.setPad_mem : (s.setPad c m).mem = s.mem := rfl
@[simp] theorem State.setPad_poison : (s.setPad c m).poison = s.poison := rfl
@[simp] theorem State.setPad_tlb : (s.setPad c m).tlb = s.tlb := rfl
@[simp] theorem State.setPad_ops : (s.setPad c m).ops = s.ops := rfl
@[simp] theorem State.setPad_locks : (s.setPad c m).locks = s.locks := rfl
@[simp] theorem State.setPad_nextOp : (s.setPad c m).nextOp = s.nextOp := rfl
@[simp] theorem State.setPad_nextId : (s.setPad c m).nextId = s.nextId := rfl
@[simp] theorem State.setPad_routers : (s.setPad c m).routers = s.routers := rfl
@[simp] theorem State.setPad_slices : (s.setPad c m).slices = s.slices := rfl
@[simp] theorem State.setPad_cxl : (s.setPad c m).cxl = s.cxl := rfl
@[simp] theorem State.setPad_ports : (s.setPad c m).ports = s.ports := rfl
@[simp] theorem State.setPad_hubLast : (s.setPad c m).hubLast = s.hubLast := rfl
@[simp] theorem State.setPad_parts : (s.setPad c m).parts = s.parts := rfl
@[simp] theorem State.setPad_mg : (s.setPad c m).mg = s.mg := rfl
@[simp] theorem State.setPad_tickAt : (s.setPad c m).tickAt = s.tickAt := rfl
@[simp] theorem State.setPad_replies : (s.setPad c m).replies = s.replies := rfl
@[simp] theorem State.setPad_draws : (s.setPad c m).draws = s.draws := rfl
@[simp] theorem State.setPad_inputs : (s.setPad c m).inputs = s.inputs := rfl
end setPad

/-! ## State.setOp -/
section setOp
variable (s : State) (o : Op)
@[simp] theorem State.setOp_now : (s.setOp o).now = s.now := rfl
@[simp] theorem State.setOp_half : (s.setOp o).half = s.half := rfl
@[simp] theorem State.setOp_g : (s.setOp o).g = s.g := rfl
@[simp] theorem State.setOp_others : (s.setOp o).others = s.others := rfl
@[simp] theorem State.setOp_cohorts : (s.setOp o).cohorts = s.cohorts := rfl
@[simp] theorem State.setOp_launches : (s.setOp o).launches = s.launches := rfl
@[simp] theorem State.setOp_pairs : (s.setOp o).pairs = s.pairs := rfl
@[simp] theorem State.setOp_spad : (s.setOp o).spad = s.spad := rfl
@[simp] theorem State.setOp_spoison : (s.setOp o).spoison = s.spoison := rfl
@[simp] theorem State.setOp_mem : (s.setOp o).mem = s.mem := rfl
@[simp] theorem State.setOp_poison : (s.setOp o).poison = s.poison := rfl
@[simp] theorem State.setOp_tlb : (s.setOp o).tlb = s.tlb := rfl
@[simp] theorem State.setOp_ops : (s.setOp o).ops = s.ops.map fun x => if x.id == o.id then o else x := rfl
@[simp] theorem State.setOp_locks : (s.setOp o).locks = s.locks := rfl
@[simp] theorem State.setOp_nextOp : (s.setOp o).nextOp = s.nextOp := rfl
@[simp] theorem State.setOp_nextId : (s.setOp o).nextId = s.nextId := rfl
@[simp] theorem State.setOp_routers : (s.setOp o).routers = s.routers := rfl
@[simp] theorem State.setOp_slices : (s.setOp o).slices = s.slices := rfl
@[simp] theorem State.setOp_cxl : (s.setOp o).cxl = s.cxl := rfl
@[simp] theorem State.setOp_ports : (s.setOp o).ports = s.ports := rfl
@[simp] theorem State.setOp_hubLast : (s.setOp o).hubLast = s.hubLast := rfl
@[simp] theorem State.setOp_parts : (s.setOp o).parts = s.parts := rfl
@[simp] theorem State.setOp_mg : (s.setOp o).mg = s.mg := rfl
@[simp] theorem State.setOp_tickAt : (s.setOp o).tickAt = s.tickAt := rfl
@[simp] theorem State.setOp_replies : (s.setOp o).replies = s.replies := rfl
@[simp] theorem State.setOp_draws : (s.setOp o).draws = s.draws := rfl
@[simp] theorem State.setOp_inputs : (s.setOp o).inputs = s.inputs := rfl
end setOp

/-! ## State.setRouter -/
section setRouter
variable (s : State) (r : Nat) (x : Router)
@[simp] theorem State.setRouter_now : (s.setRouter r x).now = s.now := rfl
@[simp] theorem State.setRouter_half : (s.setRouter r x).half = s.half := rfl
@[simp] theorem State.setRouter_g : (s.setRouter r x).g = s.g := rfl
@[simp] theorem State.setRouter_others : (s.setRouter r x).others = s.others := rfl
@[simp] theorem State.setRouter_cohorts : (s.setRouter r x).cohorts = s.cohorts := rfl
@[simp] theorem State.setRouter_launches : (s.setRouter r x).launches = s.launches := rfl
@[simp] theorem State.setRouter_pairs : (s.setRouter r x).pairs = s.pairs := rfl
@[simp] theorem State.setRouter_spad : (s.setRouter r x).spad = s.spad := rfl
@[simp] theorem State.setRouter_spoison : (s.setRouter r x).spoison = s.spoison := rfl
@[simp] theorem State.setRouter_mem : (s.setRouter r x).mem = s.mem := rfl
@[simp] theorem State.setRouter_poison : (s.setRouter r x).poison = s.poison := rfl
@[simp] theorem State.setRouter_tlb : (s.setRouter r x).tlb = s.tlb := rfl
@[simp] theorem State.setRouter_ops : (s.setRouter r x).ops = s.ops := rfl
@[simp] theorem State.setRouter_locks : (s.setRouter r x).locks = s.locks := rfl
@[simp] theorem State.setRouter_nextOp : (s.setRouter r x).nextOp = s.nextOp := rfl
@[simp] theorem State.setRouter_nextId : (s.setRouter r x).nextId = s.nextId := rfl
@[simp] theorem State.setRouter_routers : (s.setRouter r x).routers = assocSet s.routers r x := rfl
@[simp] theorem State.setRouter_slices : (s.setRouter r x).slices = s.slices := rfl
@[simp] theorem State.setRouter_cxl : (s.setRouter r x).cxl = s.cxl := rfl
@[simp] theorem State.setRouter_ports : (s.setRouter r x).ports = s.ports := rfl
@[simp] theorem State.setRouter_hubLast : (s.setRouter r x).hubLast = s.hubLast := rfl
@[simp] theorem State.setRouter_parts : (s.setRouter r x).parts = s.parts := rfl
@[simp] theorem State.setRouter_mg : (s.setRouter r x).mg = s.mg := rfl
@[simp] theorem State.setRouter_tickAt : (s.setRouter r x).tickAt = s.tickAt := rfl
@[simp] theorem State.setRouter_replies : (s.setRouter r x).replies = s.replies := rfl
@[simp] theorem State.setRouter_draws : (s.setRouter r x).draws = s.draws := rfl
@[simp] theorem State.setRouter_inputs : (s.setRouter r x).inputs = s.inputs := rfl
end setRouter

/-! ## State.setSlice -/
section setSlice
variable (s : State) (n : Nat) (x : Slice)
@[simp] theorem State.setSlice_now : (s.setSlice n x).now = s.now := rfl
@[simp] theorem State.setSlice_half : (s.setSlice n x).half = s.half := rfl
@[simp] theorem State.setSlice_g : (s.setSlice n x).g = s.g := rfl
@[simp] theorem State.setSlice_others : (s.setSlice n x).others = s.others := rfl
@[simp] theorem State.setSlice_cohorts : (s.setSlice n x).cohorts = s.cohorts := rfl
@[simp] theorem State.setSlice_launches : (s.setSlice n x).launches = s.launches := rfl
@[simp] theorem State.setSlice_pairs : (s.setSlice n x).pairs = s.pairs := rfl
@[simp] theorem State.setSlice_spad : (s.setSlice n x).spad = s.spad := rfl
@[simp] theorem State.setSlice_spoison : (s.setSlice n x).spoison = s.spoison := rfl
@[simp] theorem State.setSlice_mem : (s.setSlice n x).mem = s.mem := rfl
@[simp] theorem State.setSlice_poison : (s.setSlice n x).poison = s.poison := rfl
@[simp] theorem State.setSlice_tlb : (s.setSlice n x).tlb = s.tlb := rfl
@[simp] theorem State.setSlice_ops : (s.setSlice n x).ops = s.ops := rfl
@[simp] theorem State.setSlice_locks : (s.setSlice n x).locks = s.locks := rfl
@[simp] theorem State.setSlice_nextOp : (s.setSlice n x).nextOp = s.nextOp := rfl
@[simp] theorem State.setSlice_nextId : (s.setSlice n x).nextId = s.nextId := rfl
@[simp] theorem State.setSlice_routers : (s.setSlice n x).routers = s.routers := rfl
@[simp] theorem State.setSlice_slices : (s.setSlice n x).slices = assocSet s.slices n x := rfl
@[simp] theorem State.setSlice_cxl : (s.setSlice n x).cxl = s.cxl := rfl
@[simp] theorem State.setSlice_ports : (s.setSlice n x).ports = s.ports := rfl
@[simp] theorem State.setSlice_hubLast : (s.setSlice n x).hubLast = s.hubLast := rfl
@[simp] theorem State.setSlice_parts : (s.setSlice n x).parts = s.parts := rfl
@[simp] theorem State.setSlice_mg : (s.setSlice n x).mg = s.mg := rfl
@[simp] theorem State.setSlice_tickAt : (s.setSlice n x).tickAt = s.tickAt := rfl
@[simp] theorem State.setSlice_replies : (s.setSlice n x).replies = s.replies := rfl
@[simp] theorem State.setSlice_draws : (s.setSlice n x).draws = s.draws := rfl
@[simp] theorem State.setSlice_inputs : (s.setSlice n x).inputs = s.inputs := rfl
end setSlice

/-! ## State.setPart -/
section setPart
variable (s : State) (n : Nat) (p : Part)
@[simp] theorem State.setPart_now : (s.setPart n p).now = s.now := rfl
@[simp] theorem State.setPart_half : (s.setPart n p).half = s.half := rfl
@[simp] theorem State.setPart_g : (s.setPart n p).g = s.g := rfl
@[simp] theorem State.setPart_others : (s.setPart n p).others = s.others := rfl
@[simp] theorem State.setPart_cohorts : (s.setPart n p).cohorts = s.cohorts := rfl
@[simp] theorem State.setPart_launches : (s.setPart n p).launches = s.launches := rfl
@[simp] theorem State.setPart_pairs : (s.setPart n p).pairs = s.pairs := rfl
@[simp] theorem State.setPart_spad : (s.setPart n p).spad = s.spad := rfl
@[simp] theorem State.setPart_spoison : (s.setPart n p).spoison = s.spoison := rfl
@[simp] theorem State.setPart_mem : (s.setPart n p).mem = s.mem := rfl
@[simp] theorem State.setPart_poison : (s.setPart n p).poison = s.poison := rfl
@[simp] theorem State.setPart_tlb : (s.setPart n p).tlb = s.tlb := rfl
@[simp] theorem State.setPart_ops : (s.setPart n p).ops = s.ops := rfl
@[simp] theorem State.setPart_locks : (s.setPart n p).locks = s.locks := rfl
@[simp] theorem State.setPart_nextOp : (s.setPart n p).nextOp = s.nextOp := rfl
@[simp] theorem State.setPart_nextId : (s.setPart n p).nextId = s.nextId := rfl
@[simp] theorem State.setPart_routers : (s.setPart n p).routers = s.routers := rfl
@[simp] theorem State.setPart_slices : (s.setPart n p).slices = s.slices := rfl
@[simp] theorem State.setPart_cxl : (s.setPart n p).cxl = s.cxl := rfl
@[simp] theorem State.setPart_ports : (s.setPart n p).ports = s.ports := rfl
@[simp] theorem State.setPart_hubLast : (s.setPart n p).hubLast = s.hubLast := rfl
@[simp] theorem State.setPart_parts : (s.setPart n p).parts = s.parts.set n p := rfl
@[simp] theorem State.setPart_mg : (s.setPart n p).mg = s.mg := rfl
@[simp] theorem State.setPart_tickAt : (s.setPart n p).tickAt = s.tickAt := rfl
@[simp] theorem State.setPart_replies : (s.setPart n p).replies = s.replies := rfl
@[simp] theorem State.setPart_draws : (s.setPart n p).draws = s.draws := rfl
@[simp] theorem State.setPart_inputs : (s.setPart n p).inputs = s.inputs := rfl
end setPart

/-! ## State.setHere -/
section setHere
variable (s : State) (x : Slot)
@[simp] theorem State.setHere_now : (s.setHere x).now = s.now := rfl
@[simp] theorem State.setHere_half : (s.setHere x).half = s.half := rfl
@[simp] theorem State.setHere_g : (s.setHere x).g = s.g.setHere x := rfl
@[simp] theorem State.setHere_others : (s.setHere x).others = s.others := rfl
@[simp] theorem State.setHere_cohorts : (s.setHere x).cohorts = s.cohorts := rfl
@[simp] theorem State.setHere_launches : (s.setHere x).launches = s.launches := rfl
@[simp] theorem State.setHere_pairs : (s.setHere x).pairs = s.pairs := rfl
@[simp] theorem State.setHere_spad : (s.setHere x).spad = s.spad := rfl
@[simp] theorem State.setHere_spoison : (s.setHere x).spoison = s.spoison := rfl
@[simp] theorem State.setHere_mem : (s.setHere x).mem = s.mem := rfl
@[simp] theorem State.setHere_poison : (s.setHere x).poison = s.poison := rfl
@[simp] theorem State.setHere_tlb : (s.setHere x).tlb = s.tlb := rfl
@[simp] theorem State.setHere_ops : (s.setHere x).ops = s.ops := rfl
@[simp] theorem State.setHere_locks : (s.setHere x).locks = s.locks := rfl
@[simp] theorem State.setHere_nextOp : (s.setHere x).nextOp = s.nextOp := rfl
@[simp] theorem State.setHere_nextId : (s.setHere x).nextId = s.nextId := rfl
@[simp] theorem State.setHere_routers : (s.setHere x).routers = s.routers := rfl
@[simp] theorem State.setHere_slices : (s.setHere x).slices = s.slices := rfl
@[simp] theorem State.setHere_cxl : (s.setHere x).cxl = s.cxl := rfl
@[simp] theorem State.setHere_ports : (s.setHere x).ports = s.ports := rfl
@[simp] theorem State.setHere_hubLast : (s.setHere x).hubLast = s.hubLast := rfl
@[simp] theorem State.setHere_parts : (s.setHere x).parts = s.parts := rfl
@[simp] theorem State.setHere_mg : (s.setHere x).mg = s.mg := rfl
@[simp] theorem State.setHere_tickAt : (s.setHere x).tickAt = s.tickAt := rfl
@[simp] theorem State.setHere_replies : (s.setHere x).replies = s.replies := rfl
@[simp] theorem State.setHere_draws : (s.setHere x).draws = s.draws := rfl
@[simp] theorem State.setHere_inputs : (s.setHere x).inputs = s.inputs := rfl
end setHere

/-! ## State.addPends -/
section addPends
variable (s : State) (ps : List Pend)
@[simp] theorem State.addPends_now : (s.addPends ps).now = s.now := rfl
@[simp] theorem State.addPends_half : (s.addPends ps).half = s.half := rfl
@[simp] theorem State.addPends_g : (s.addPends ps).g = s.g.addPends ps := rfl
@[simp] theorem State.addPends_others : (s.addPends ps).others = s.others := rfl
@[simp] theorem State.addPends_cohorts : (s.addPends ps).cohorts = s.cohorts := rfl
@[simp] theorem State.addPends_launches : (s.addPends ps).launches = s.launches := rfl
@[simp] theorem State.addPends_pairs : (s.addPends ps).pairs = s.pairs := rfl
@[simp] theorem State.addPends_spad : (s.addPends ps).spad = s.spad := rfl
@[simp] theorem State.addPends_spoison : (s.addPends ps).spoison = s.spoison := rfl
@[simp] theorem State.addPends_mem : (s.addPends ps).mem = s.mem := rfl
@[simp] theorem State.addPends_poison : (s.addPends ps).poison = s.poison := rfl
@[simp] theorem State.addPends_tlb : (s.addPends ps).tlb = s.tlb := rfl
@[simp] theorem State.addPends_ops : (s.addPends ps).ops = s.ops := rfl
@[simp] theorem State.addPends_locks : (s.addPends ps).locks = s.locks := rfl
@[simp] theorem State.addPends_nextOp : (s.addPends ps).nextOp = s.nextOp := rfl
@[simp] theorem State.addPends_nextId : (s.addPends ps).nextId = s.nextId := rfl
@[simp] theorem State.addPends_routers : (s.addPends ps).routers = s.routers := rfl
@[simp] theorem State.addPends_slices : (s.addPends ps).slices = s.slices := rfl
@[simp] theorem State.addPends_cxl : (s.addPends ps).cxl = s.cxl := rfl
@[simp] theorem State.addPends_ports : (s.addPends ps).ports = s.ports := rfl
@[simp] theorem State.addPends_hubLast : (s.addPends ps).hubLast = s.hubLast := rfl
@[simp] theorem State.addPends_parts : (s.addPends ps).parts = s.parts := rfl
@[simp] theorem State.addPends_mg : (s.addPends ps).mg = s.mg := rfl
@[simp] theorem State.addPends_tickAt : (s.addPends ps).tickAt = s.tickAt := rfl
@[simp] theorem State.addPends_replies : (s.addPends ps).replies = s.replies := rfl
@[simp] theorem State.addPends_draws : (s.addPends ps).draws = s.draws := rfl
@[simp] theorem State.addPends_inputs : (s.addPends ps).inputs = s.inputs := rfl
end addPends

/-! ## State.addFxs -/
section addFxs
variable (s : State) (xs : List Fx)
@[simp] theorem State.addFxs_now : (s.addFxs xs).now = s.now := rfl
@[simp] theorem State.addFxs_half : (s.addFxs xs).half = s.half := rfl
@[simp] theorem State.addFxs_g : (s.addFxs xs).g = { s.g with fx := xs.foldl addFx s.g.fx } := rfl
@[simp] theorem State.addFxs_others : (s.addFxs xs).others = s.others := rfl
@[simp] theorem State.addFxs_cohorts : (s.addFxs xs).cohorts = s.cohorts := rfl
@[simp] theorem State.addFxs_launches : (s.addFxs xs).launches = s.launches := rfl
@[simp] theorem State.addFxs_pairs : (s.addFxs xs).pairs = s.pairs := rfl
@[simp] theorem State.addFxs_spad : (s.addFxs xs).spad = s.spad := rfl
@[simp] theorem State.addFxs_spoison : (s.addFxs xs).spoison = s.spoison := rfl
@[simp] theorem State.addFxs_mem : (s.addFxs xs).mem = s.mem := rfl
@[simp] theorem State.addFxs_poison : (s.addFxs xs).poison = s.poison := rfl
@[simp] theorem State.addFxs_tlb : (s.addFxs xs).tlb = s.tlb := rfl
@[simp] theorem State.addFxs_ops : (s.addFxs xs).ops = s.ops := rfl
@[simp] theorem State.addFxs_locks : (s.addFxs xs).locks = s.locks := rfl
@[simp] theorem State.addFxs_nextOp : (s.addFxs xs).nextOp = s.nextOp := rfl
@[simp] theorem State.addFxs_nextId : (s.addFxs xs).nextId = s.nextId := rfl
@[simp] theorem State.addFxs_routers : (s.addFxs xs).routers = s.routers := rfl
@[simp] theorem State.addFxs_slices : (s.addFxs xs).slices = s.slices := rfl
@[simp] theorem State.addFxs_cxl : (s.addFxs xs).cxl = s.cxl := rfl
@[simp] theorem State.addFxs_ports : (s.addFxs xs).ports = s.ports := rfl
@[simp] theorem State.addFxs_hubLast : (s.addFxs xs).hubLast = s.hubLast := rfl
@[simp] theorem State.addFxs_parts : (s.addFxs xs).parts = s.parts := rfl
@[simp] theorem State.addFxs_mg : (s.addFxs xs).mg = s.mg := rfl
@[simp] theorem State.addFxs_tickAt : (s.addFxs xs).tickAt = s.tickAt := rfl
@[simp] theorem State.addFxs_replies : (s.addFxs xs).replies = s.replies := rfl
@[simp] theorem State.addFxs_draws : (s.addFxs xs).draws = s.draws := rfl
@[simp] theorem State.addFxs_inputs : (s.addFxs xs).inputs = s.inputs := rfl
end addFxs

/-! ## Gangs -/
section gang
variable (g : Gang) (ps : List Pend)
@[simp] theorem Gang.addPends_cohort : (g.addPends ps).cohort = g.cohort := rfl
@[simp] theorem Gang.addPends_f2 : (g.addPends ps).f2 = g.f2 := rfl
@[simp] theorem Gang.addPends_core : (g.addPends ps).core = g.core := rfl
@[simp] theorem Gang.addPends_ox : (g.addPends ps).ox = g.ox := rfl
@[simp] theorem Gang.addPends_oy : (g.addPends ps).oy = g.oy := rfl
@[simp] theorem Gang.addPends_kn : (g.addPends ps).kn = g.kn := rfl
@[simp] theorem Gang.addPends_lanes : (g.addPends ps).lanes = g.lanes := rfl
@[simp] theorem Gang.addPends_s : (g.addPends ps).s = g.s := rfl
@[simp] theorem Gang.addPends_m : (g.addPends ps).m = g.m := rfl
@[simp] theorem Gang.addPends_k : (g.addPends ps).k = g.k := rfl
@[simp] theorem Gang.addPends_s0 : (g.addPends ps).s0 = g.s0 := rfl
@[simp] theorem Gang.addPends_s1 : (g.addPends ps).s1 = g.s1 := rfl
@[simp] theorem Gang.addPends_cur : (g.addPends ps).cur = g.cur := rfl
@[simp] theorem Gang.addPends_lastSlot : (g.addPends ps).lastSlot = g.lastSlot := rfl
@[simp] theorem Gang.addPends_mode : (g.addPends ps).mode = g.mode := rfl
@[simp] theorem Gang.addPends_tcause : (g.addPends ps).tcause = g.tcause := rfl
@[simp] theorem Gang.addPends_chk : (g.addPends ps).chk = g.chk := rfl
@[simp] theorem Gang.addPends_itemen : (g.addPends ps).itemen = g.itemen := rfl
@[simp] theorem Gang.addPends_lateen : (g.addPends ps).lateen = g.lateen := rfl
@[simp] theorem Gang.addPends_slackdef : (g.addPends ps).slackdef = g.slackdef := rfl
@[simp] theorem Gang.addPends_late : (g.addPends ps).late = g.late := rfl
@[simp] theorem Gang.addPends_cycBase : (g.addPends ps).cycBase = g.cycBase := rfl
@[simp] theorem Gang.addPends_issues : (g.addPends ps).issues = g.issues := rfl
@[simp] theorem Gang.addPends_regpc : (g.addPends ps).regpc = g.regpc := rfl
@[simp] theorem Gang.addPends_regcnt : (g.addPends ps).regcnt = g.regcnt := rfl
@[simp] theorem Gang.addPends_basepc : (g.addPends ps).basepc = g.basepc := rfl
@[simp] theorem Gang.addPends_basecnt : (g.addPends ps).basecnt = g.basecnt := rfl
@[simp] theorem Gang.addPends_without0 : (g.addPends ps).without0 = g.without0 := rfl
@[simp] theorem Gang.addPends_without1 : (g.addPends ps).without1 = g.without1 := rfl
@[simp] theorem Gang.addPends_stackd : (g.addPends ps).stackd = g.stackd := rfl
@[simp] theorem Gang.addPends_hstack : (g.addPends ps).hstack = g.hstack := rfl
@[simp] theorem Gang.addPends_hi0 : (g.addPends ps).hi0 = g.hi0 := rfl
@[simp] theorem Gang.addPends_hi1 : (g.addPends ps).hi1 = g.hi1 := rfl
@[simp] theorem Gang.addPends_kept : (g.addPends ps).kept = g.kept := rfl
@[simp] theorem Gang.addPends_nextTid : (g.addPends ps).nextTid = g.nextTid := rfl
@[simp] theorem Gang.addPends_stk : (g.addPends ps).stk = g.stk := rfl
@[simp] theorem Gang.addPends_stopAt : (g.addPends ps).stopAt = g.stopAt := rfl
@[simp] theorem Gang.addPends_prom : (g.addPends ps).prom = g.prom := rfl
@[simp] theorem Gang.addPends_lastTag : (g.addPends ps).lastTag = g.lastTag := rfl
@[simp] theorem Gang.addPends_pend : (g.addPends ps).pend = ps.foldl addPend g.pend := rfl
@[simp] theorem Gang.addPends_fx : (g.addPends ps).fx = g.fx := rfl
@[simp] theorem Gang.addPends_loads : (g.addPends ps).loads = g.loads := rfl
@[simp] theorem Gang.addPends_bars : (g.addPends ps).bars = g.bars := rfl
@[simp] theorem Gang.addPends_st : (g.addPends ps).st = g.st := rfl
@[simp] theorem Gang.addPends_lastIssue : (g.addPends ps).lastIssue = g.lastIssue := rfl
@[simp] theorem Gang.addPends_activeAt : (g.addPends ps).activeAt = g.activeAt := rfl
@[simp] theorem Gang.addPends_eligAt : (g.addPends ps).eligAt = g.eligAt := rfl
end gang

section slot
variable (g : Gang) (n : Nat) (x : Slot)
@[simp] theorem Gang.setSlot_cohort : (g.setSlot n x).cohort = g.cohort := by unfold Gang.setSlot; split <;> rfl
@[simp] theorem Gang.setSlot_f2 : (g.setSlot n x).f2 = g.f2 := by unfold Gang.setSlot; split <;> rfl
@[simp] theorem Gang.setSlot_core : (g.setSlot n x).core = g.core := by unfold Gang.setSlot; split <;> rfl
@[simp] theorem Gang.setSlot_ox : (g.setSlot n x).ox = g.ox := by unfold Gang.setSlot; split <;> rfl
@[simp] theorem Gang.setSlot_oy : (g.setSlot n x).oy = g.oy := by unfold Gang.setSlot; split <;> rfl
@[simp] theorem Gang.setSlot_kn : (g.setSlot n x).kn = g.kn := by unfold Gang.setSlot; split <;> rfl
@[simp] theorem Gang.setSlot_lanes : (g.setSlot n x).lanes = g.lanes := by unfold Gang.setSlot; split <;> rfl
@[simp] theorem Gang.setSlot_s : (g.setSlot n x).s = g.s := by unfold Gang.setSlot; split <;> rfl
@[simp] theorem Gang.setSlot_m : (g.setSlot n x).m = g.m := by unfold Gang.setSlot; split <;> rfl
@[simp] theorem Gang.setSlot_k : (g.setSlot n x).k = g.k := by unfold Gang.setSlot; split <;> rfl
@[simp] theorem Gang.setSlot_cur : (g.setSlot n x).cur = g.cur := by unfold Gang.setSlot; split <;> rfl
@[simp] theorem Gang.setSlot_lastSlot : (g.setSlot n x).lastSlot = g.lastSlot := by unfold Gang.setSlot; split <;> rfl
@[simp] theorem Gang.setSlot_mode : (g.setSlot n x).mode = g.mode := by unfold Gang.setSlot; split <;> rfl
@[simp] theorem Gang.setSlot_tcause : (g.setSlot n x).tcause = g.tcause := by unfold Gang.setSlot; split <;> rfl
@[simp] theorem Gang.setSlot_chk : (g.setSlot n x).chk = g.chk := by unfold Gang.setSlot; split <;> rfl
@[simp] theorem Gang.setSlot_itemen : (g.setSlot n x).itemen = g.itemen := by unfold Gang.setSlot; split <;> rfl
@[simp] theorem Gang.setSlot_lateen : (g.setSlot n x).lateen = g.lateen := by unfold Gang.setSlot; split <;> rfl
@[simp] theorem Gang.setSlot_slackdef : (g.setSlot n x).slackdef = g.slackdef := by unfold Gang.setSlot; split <;> rfl
@[simp] theorem Gang.setSlot_late : (g.setSlot n x).late = g.late := by unfold Gang.setSlot; split <;> rfl
@[simp] theorem Gang.setSlot_cycBase : (g.setSlot n x).cycBase = g.cycBase := by unfold Gang.setSlot; split <;> rfl
@[simp] theorem Gang.setSlot_issues : (g.setSlot n x).issues = g.issues := by unfold Gang.setSlot; split <;> rfl
@[simp] theorem Gang.setSlot_regpc : (g.setSlot n x).regpc = g.regpc := by unfold Gang.setSlot; split <;> rfl
@[simp] theorem Gang.setSlot_regcnt : (g.setSlot n x).regcnt = g.regcnt := by unfold Gang.setSlot; split <;> rfl
@[simp] theorem Gang.setSlot_basepc : (g.setSlot n x).basepc = g.basepc := by unfold Gang.setSlot; split <;> rfl
@[simp] theorem Gang.setSlot_basecnt : (g.setSlot n x).basecnt = g.basecnt := by unfold Gang.setSlot; split <;> rfl
@[simp] theorem Gang.setSlot_without0 : (g.setSlot n x).without0 = g.without0 := by unfold Gang.setSlot; split <;> rfl
@[simp] theorem Gang.setSlot_without1 : (g.setSlot n x).without1 = g.without1 := by unfold Gang.setSlot; split <;> rfl
@[simp] theorem Gang.setSlot_stackd : (g.setSlot n x).stackd = g.stackd := by unfold Gang.setSlot; split <;> rfl
@[simp] theorem Gang.setSlot_hstack : (g.setSlot n x).hstack = g.hstack := by unfold Gang.setSlot; split <;> rfl
@[simp] theorem Gang.setSlot_hi0 : (g.setSlot n x).hi0 = g.hi0 := by unfold Gang.setSlot; split <;> rfl
@[simp] theorem Gang.setSlot_hi1 : (g.setSlot n x).hi1 = g.hi1 := by unfold Gang.setSlot; split <;> rfl
@[simp] theorem Gang.setSlot_kept : (g.setSlot n x).kept = g.kept := by unfold Gang.setSlot; split <;> rfl
@[simp] theorem Gang.setSlot_nextTid : (g.setSlot n x).nextTid = g.nextTid := by unfold Gang.setSlot; split <;> rfl
@[simp] theorem Gang.setSlot_stk : (g.setSlot n x).stk = g.stk := by unfold Gang.setSlot; split <;> rfl
@[simp] theorem Gang.setSlot_stopAt : (g.setSlot n x).stopAt = g.stopAt := by unfold Gang.setSlot; split <;> rfl
@[simp] theorem Gang.setSlot_prom : (g.setSlot n x).prom = g.prom := by unfold Gang.setSlot; split <;> rfl
@[simp] theorem Gang.setSlot_lastTag : (g.setSlot n x).lastTag = g.lastTag := by unfold Gang.setSlot; split <;> rfl
@[simp] theorem Gang.setSlot_pend : (g.setSlot n x).pend = g.pend := by unfold Gang.setSlot; split <;> rfl
@[simp] theorem Gang.setSlot_fx : (g.setSlot n x).fx = g.fx := by unfold Gang.setSlot; split <;> rfl
@[simp] theorem Gang.setSlot_loads : (g.setSlot n x).loads = g.loads := by unfold Gang.setSlot; split <;> rfl
@[simp] theorem Gang.setSlot_bars : (g.setSlot n x).bars = g.bars := by unfold Gang.setSlot; split <;> rfl
@[simp] theorem Gang.setSlot_st : (g.setSlot n x).st = g.st := by unfold Gang.setSlot; split <;> rfl
@[simp] theorem Gang.setSlot_lastIssue : (g.setSlot n x).lastIssue = g.lastIssue := by unfold Gang.setSlot; split <;> rfl
@[simp] theorem Gang.setSlot_activeAt : (g.setSlot n x).activeAt = g.activeAt := by unfold Gang.setSlot; split <;> rfl
@[simp] theorem Gang.setSlot_eligAt : (g.setSlot n x).eligAt = g.eligAt := by unfold Gang.setSlot; split <;> rfl
@[simp] theorem Gang.setSlot_s0 : (g.setSlot n x).s0 = if n = 0 then x else g.s0 := by unfold Gang.setSlot; split <;> rfl
@[simp] theorem Gang.setSlot_s1 : (g.setSlot n x).s1 = if n = 0 then g.s1 else x := by unfold Gang.setSlot; split <;> rfl
end slot

section here
variable (g : Gang) (x : Slot)
@[simp] theorem Gang.setHere_cohort : (g.setHere x).cohort = g.cohort := Gang.setSlot_cohort g g.cur x
@[simp] theorem Gang.setHere_f2 : (g.setHere x).f2 = g.f2 := Gang.setSlot_f2 g g.cur x
@[simp] theorem Gang.setHere_core : (g.setHere x).core = g.core := Gang.setSlot_core g g.cur x
@[simp] theorem Gang.setHere_ox : (g.setHere x).ox = g.ox := Gang.setSlot_ox g g.cur x
@[simp] theorem Gang.setHere_oy : (g.setHere x).oy = g.oy := Gang.setSlot_oy g g.cur x
@[simp] theorem Gang.setHere_kn : (g.setHere x).kn = g.kn := Gang.setSlot_kn g g.cur x
@[simp] theorem Gang.setHere_lanes : (g.setHere x).lanes = g.lanes := Gang.setSlot_lanes g g.cur x
@[simp] theorem Gang.setHere_s : (g.setHere x).s = g.s := Gang.setSlot_s g g.cur x
@[simp] theorem Gang.setHere_m : (g.setHere x).m = g.m := Gang.setSlot_m g g.cur x
@[simp] theorem Gang.setHere_k : (g.setHere x).k = g.k := Gang.setSlot_k g g.cur x
@[simp] theorem Gang.setHere_cur : (g.setHere x).cur = g.cur := Gang.setSlot_cur g g.cur x
@[simp] theorem Gang.setHere_lastSlot : (g.setHere x).lastSlot = g.lastSlot := Gang.setSlot_lastSlot g g.cur x
@[simp] theorem Gang.setHere_mode : (g.setHere x).mode = g.mode := Gang.setSlot_mode g g.cur x
@[simp] theorem Gang.setHere_tcause : (g.setHere x).tcause = g.tcause := Gang.setSlot_tcause g g.cur x
@[simp] theorem Gang.setHere_chk : (g.setHere x).chk = g.chk := Gang.setSlot_chk g g.cur x
@[simp] theorem Gang.setHere_itemen : (g.setHere x).itemen = g.itemen := Gang.setSlot_itemen g g.cur x
@[simp] theorem Gang.setHere_lateen : (g.setHere x).lateen = g.lateen := Gang.setSlot_lateen g g.cur x
@[simp] theorem Gang.setHere_slackdef : (g.setHere x).slackdef = g.slackdef := Gang.setSlot_slackdef g g.cur x
@[simp] theorem Gang.setHere_late : (g.setHere x).late = g.late := Gang.setSlot_late g g.cur x
@[simp] theorem Gang.setHere_cycBase : (g.setHere x).cycBase = g.cycBase := Gang.setSlot_cycBase g g.cur x
@[simp] theorem Gang.setHere_issues : (g.setHere x).issues = g.issues := Gang.setSlot_issues g g.cur x
@[simp] theorem Gang.setHere_regpc : (g.setHere x).regpc = g.regpc := Gang.setSlot_regpc g g.cur x
@[simp] theorem Gang.setHere_regcnt : (g.setHere x).regcnt = g.regcnt := Gang.setSlot_regcnt g g.cur x
@[simp] theorem Gang.setHere_basepc : (g.setHere x).basepc = g.basepc := Gang.setSlot_basepc g g.cur x
@[simp] theorem Gang.setHere_basecnt : (g.setHere x).basecnt = g.basecnt := Gang.setSlot_basecnt g g.cur x
@[simp] theorem Gang.setHere_without0 : (g.setHere x).without0 = g.without0 := Gang.setSlot_without0 g g.cur x
@[simp] theorem Gang.setHere_without1 : (g.setHere x).without1 = g.without1 := Gang.setSlot_without1 g g.cur x
@[simp] theorem Gang.setHere_stackd : (g.setHere x).stackd = g.stackd := Gang.setSlot_stackd g g.cur x
@[simp] theorem Gang.setHere_hstack : (g.setHere x).hstack = g.hstack := Gang.setSlot_hstack g g.cur x
@[simp] theorem Gang.setHere_hi0 : (g.setHere x).hi0 = g.hi0 := Gang.setSlot_hi0 g g.cur x
@[simp] theorem Gang.setHere_hi1 : (g.setHere x).hi1 = g.hi1 := Gang.setSlot_hi1 g g.cur x
@[simp] theorem Gang.setHere_kept : (g.setHere x).kept = g.kept := Gang.setSlot_kept g g.cur x
@[simp] theorem Gang.setHere_nextTid : (g.setHere x).nextTid = g.nextTid := Gang.setSlot_nextTid g g.cur x
@[simp] theorem Gang.setHere_stk : (g.setHere x).stk = g.stk := Gang.setSlot_stk g g.cur x
@[simp] theorem Gang.setHere_stopAt : (g.setHere x).stopAt = g.stopAt := Gang.setSlot_stopAt g g.cur x
@[simp] theorem Gang.setHere_prom : (g.setHere x).prom = g.prom := Gang.setSlot_prom g g.cur x
@[simp] theorem Gang.setHere_lastTag : (g.setHere x).lastTag = g.lastTag := Gang.setSlot_lastTag g g.cur x
@[simp] theorem Gang.setHere_pend : (g.setHere x).pend = g.pend := Gang.setSlot_pend g g.cur x
@[simp] theorem Gang.setHere_fx : (g.setHere x).fx = g.fx := Gang.setSlot_fx g g.cur x
@[simp] theorem Gang.setHere_loads : (g.setHere x).loads = g.loads := Gang.setSlot_loads g g.cur x
@[simp] theorem Gang.setHere_bars : (g.setHere x).bars = g.bars := Gang.setSlot_bars g g.cur x
@[simp] theorem Gang.setHere_st : (g.setHere x).st = g.st := Gang.setSlot_st g g.cur x
@[simp] theorem Gang.setHere_lastIssue : (g.setHere x).lastIssue = g.lastIssue := Gang.setSlot_lastIssue g g.cur x
@[simp] theorem Gang.setHere_activeAt : (g.setHere x).activeAt = g.activeAt := Gang.setSlot_activeAt g g.cur x
@[simp] theorem Gang.setHere_eligAt : (g.setHere x).eligAt = g.eligAt := Gang.setSlot_eligAt g g.cur x
@[simp] theorem Gang.setHere_s0 : (g.setHere x).s0 = if g.cur = 0 then x else g.s0 := Gang.setSlot_s0 g g.cur x
@[simp] theorem Gang.setHere_s1 : (g.setHere x).s1 = if g.cur = 0 then g.s1 else x := Gang.setSlot_s1 g g.cur x
@[simp] theorem Gang.setHere_here : (g.setHere x).here = x := by
  unfold Gang.here Gang.setHere Gang.slot; rw [Gang.setSlot_cur]; unfold Gang.setSlot; split <;> rfl
end here

/-! ## Going on -/

/-- However the slot goes on, everything outside its gang stands (R35, R91). -/
theorem goOn_mem (s : State) (v : View) (pc : Nat) (fl : Flow) : (goOn s v pc fl).mem = s.mem := by cases fl <;> rfl
theorem goOn_spad (s : State) (v : View) (pc : Nat) (fl : Flow) : (goOn s v pc fl).spad = s.spad := by cases fl <;> rfl
theorem goOn_ops (s : State) (v : View) (pc : Nat) (fl : Flow) : (goOn s v pc fl).ops = s.ops := by cases fl <;> rfl
theorem goOn_others (s : State) (v : View) (pc : Nat) (fl : Flow) : (goOn s v pc fl).others = s.others := by cases fl <;> rfl
theorem goOn_cohorts (s : State) (v : View) (pc : Nat) (fl : Flow) : (goOn s v pc fl).cohorts = s.cohorts := by cases fl <;> rfl

/-- An instruction that goes on takes units and changes nothing else outside its gang (R34). -/
theorem finish_mem (s : State) (v : View) (also : Also) (u : State) (fl : Flow) : (finish s v also u fl).mem = u.mem := by
  unfold finish; dsimp only; rw [goOn_mem]; split <;> rfl
theorem finish_spad (s : State) (v : View) (also : Also) (u : State) (fl : Flow) : (finish s v also u fl).spad = u.spad := by
  unfold finish; dsimp only; rw [goOn_spad]; split <;> rfl
theorem finish_ops (s : State) (v : View) (also : Also) (u : State) (fl : Flow) : (finish s v also u fl).ops = u.ops := by
  unfold finish; dsimp only; rw [goOn_ops]; split <;> rfl
theorem finish_others (s : State) (v : View) (also : Also) (u : State) (fl : Flow) : (finish s v also u fl).others = u.others := by
  unfold finish; dsimp only; rw [goOn_others]; split <;> rfl

/-! ## Places fixed -/

/-- What a fold keeps if each of its steps does. -/
theorem foldl_keeps {α β : Type} (p : State → β) (f : State → α → State) (h : ∀ s x, p (f s x) = p s) :
    ∀ (xs : List α) (s : State), p (xs.foldl f s) = p s
  | [], _ => rfl
  | x :: xs, s => (foldl_keeps p f h xs (f s x)).trans (h s x)

/-- Fixing the place of an effect changes what its gang has in flight and nothing else (R213, R231). -/
theorem fixAt_g (s : State) (i : Nat) :
    s.fixAt i = { s with g := { s.g with fx := (s.fixAt i).g.fx, pend := (s.fixAt i).g.pend } } := by
  unfold State.fixAt
  split
  · rfl
  · split <;> rfl

theorem fixFx_keeps {β : Type} (p : State → β) (h : ∀ s i, p (State.fixAt s i) = p s) (s : State) (hit : Fx → Bool) :
    p (s.fixFx hit) = p s := by
  unfold State.fixFx
  split
  · exact foldl_keeps p (fun s (x : (Fx × Bool) × Nat) => s.fixAt x.2) (fun s x => h s x.2) _ _
  · rfl

@[simp] theorem fixFx_mem (s : State) (hit : Fx → Bool) : (s.fixFx hit).mem = s.mem :=
  fixFx_keeps State.mem (fun s i => by rw [fixAt_g]) s hit
@[simp] theorem fixFx_spad (s : State) (hit : Fx → Bool) : (s.fixFx hit).spad = s.spad :=
  fixFx_keeps State.spad (fun s i => by rw [fixAt_g]) s hit
@[simp] theorem fixFx_ops (s : State) (hit : Fx → Bool) : (s.fixFx hit).ops = s.ops :=
  fixFx_keeps State.ops (fun s i => by rw [fixAt_g]) s hit
@[simp] theorem fixFx_pairs (s : State) (hit : Fx → Bool) : (s.fixFx hit).pairs = s.pairs :=
  fixFx_keeps State.pairs (fun s i => by rw [fixAt_g]) s hit
@[simp] theorem fixFx_cohorts (s : State) (hit : Fx → Bool) : (s.fixFx hit).cohorts = s.cohorts :=
  fixFx_keeps State.cohorts (fun s i => by rw [fixAt_g]) s hit
@[simp] theorem fixFx_now (s : State) (hit : Fx → Bool) : (s.fixFx hit).now = s.now :=
  fixFx_keeps State.now (fun s i => by rw [fixAt_g]) s hit
@[simp] theorem fixFx_draws (s : State) (hit : Fx → Bool) : (s.fixFx hit).draws = s.draws :=
  fixFx_keeps State.draws (fun s i => by rw [fixAt_g]) s hit
@[simp] theorem fixFx_lanes (s : State) (hit : Fx → Bool) : (s.fixFx hit).g.lanes = s.g.lanes :=
  fixFx_keeps (fun s => s.g.lanes) (fun s i => by rw [fixAt_g]) s hit
@[simp] theorem fixFx_s (s : State) (hit : Fx → Bool) : (s.fixFx hit).g.s = s.g.s :=
  fixFx_keeps (fun s => s.g.s) (fun s i => by rw [fixAt_g]) s hit
@[simp] theorem fixFx_s0 (s : State) (hit : Fx → Bool) : (s.fixFx hit).g.s0 = s.g.s0 :=
  fixFx_keeps (fun s => s.g.s0) (fun s i => by rw [fixAt_g]) s hit
@[simp] theorem fixFx_s1 (s : State) (hit : Fx → Bool) : (s.fixFx hit).g.s1 = s.g.s1 :=
  fixFx_keeps (fun s => s.g.s1) (fun s i => by rw [fixAt_g]) s hit
@[simp] theorem fixFx_cur (s : State) (hit : Fx → Bool) : (s.fixFx hit).g.cur = s.g.cur :=
  fixFx_keeps (fun s => s.g.cur) (fun s i => by rw [fixAt_g]) s hit
@[simp] theorem fixFx_mode (s : State) (hit : Fx → Bool) : (s.fixFx hit).g.mode = s.g.mode :=
  fixFx_keeps (fun s => s.g.mode) (fun s i => by rw [fixAt_g]) s hit
@[simp] theorem fixFx_kn (s : State) (hit : Fx → Bool) : (s.fixFx hit).g.kn = s.g.kn :=
  fixFx_keeps (fun s => s.g.kn) (fun s i => by rw [fixAt_g]) s hit

/-- Giving an RMW on a barrier its result changes what its gang has in flight and nothing else. -/
theorem barResult_g (s : State) (i : Nat) : s.barResult i = { s with g := { s.g with fx := (s.barResult i).g.fx, pend := (s.barResult i).g.pend } } := by
  unfold State.barResult
  repeat' split
  all_goals rfl

theorem fixResults_keeps {β : Type} (p : State → β) (h : ∀ s i, p (State.fixAt s i) = p s) (h' : ∀ s i, p (State.barResult s i) = p s)
    (s : State) (hit : Fx → Bool) : p (s.fixResults hit) = p s := by
  unfold State.fixResults
  dsimp only
  split
  · exact (foldl_keeps p (fun s (x : Fx × Nat) => s.barResult x.2) (fun s x => h' s x.2) _ _).trans (fixFx_keeps p h s _)
  · exact fixFx_keeps p h s _

@[simp] theorem fixResults_mem (s : State) (hit : Fx → Bool) : (s.fixResults hit).mem = s.mem :=
  fixResults_keeps State.mem (fun s i => by rw [fixAt_g]) (fun s i => by rw [barResult_g]) s hit
@[simp] theorem fixResults_spad (s : State) (hit : Fx → Bool) : (s.fixResults hit).spad = s.spad :=
  fixResults_keeps State.spad (fun s i => by rw [fixAt_g]) (fun s i => by rw [barResult_g]) s hit

/-- A trap's issue takes issue slots of the gang's quadrants (R150). -/
@[simp] theorem takeIssue_mem (s : State) : s.takeIssue.mem = s.mem := rfl
@[simp] theorem takeIssue_g (s : State) : s.takeIssue.g = s.g := rfl

/-! ## Traps -/

/-- A trap in handler mode is a cohort fault (R42). -/
theorem takeTrap_handler {s : State} (h : s.g.mode = true) (e : Flt) (w l : W64) (o : Nat) :
    takeTrap s e w l o = cohortFault s e.cause w := by
  unfold takeTrap; rw [h]

/-- So is one of a kernel without a handler (R366). -/
theorem takeTrap_none {s : State} (h : s.g.kn.handler = none) (e : Flt) (w l : W64) (o : Nat) :
    takeTrap s e w l o = cohortFault s e.cause w := by
  unfold takeTrap; rw [h]; cases s.g.mode <;> rfl

/-- A cohort fault changes no memory and no scratchpad (R366). -/
theorem cohortFault_mem (s : State) (c : Cause) (w : W64) : (cohortFault s c w).mem = s.mem := by
  unfold cohortFault; dsimp only; split <;> rfl
theorem cohortFault_spad (s : State) (c : Cause) (w : W64) : (cohortFault s c w).spad = s.spad := by
  unfold cohortFault; dsimp only; split <;> rfl
/-- Nor the mode (R42). -/
theorem cohortFault_mode (s : State) (c : Cause) (w : W64) : (cohortFault s c w).g.mode = s.g.mode := by
  unfold cohortFault; dsimp only; split
  · exact Gang.setHere_mode _ _
  · rfl

/-- The return from a trap is to normal mode (R99). -/
theorem trapReturn_mode (s : State) (form : Nat) : (trapReturn s form).g.mode = false := rfl
theorem trapReturn_tcause (s : State) (form : Nat) : (trapReturn s form).g.tcause = 0 := rfl
/-- It changes no memory. -/
theorem trapReturn_mem (s : State) (form : Nat) : (trapReturn s form).mem = s.mem := rfl
theorem trapReturn_spad (s : State) (form : Nat) : (trapReturn s form).spad = s.spad := rfl

/-! ## Landing -/

/-- Configuration results that land change no memory, no scratchpad, no gang and no operation (R192). -/
theorem landBc_keeps {β : Type} (p : State → β) (h : ∀ s c, p (State.setCohort s c) = p s) (t : Nat) (s : State) :
    p (landBc t s) = p s := by
  unfold landBc
  refine foldl_keeps p _ (fun s x => ?_) _ _
  split
  · split
    · exact h _ _
    · rfl
  · rfl
theorem landBc_mem (t : Nat) (s : State) : (landBc t s).mem = s.mem := landBc_keeps State.mem (fun _ _ => rfl) t s
theorem landBc_spad (t : Nat) (s : State) : (landBc t s).spad = s.spad := landBc_keeps State.spad (fun _ _ => rfl) t s
theorem landBc_g (t : Nat) (s : State) : (landBc t s).g = s.g := landBc_keeps State.g (fun _ _ => rfl) t s
theorem landBc_ops (t : Nat) (s : State) : (landBc t s).ops = s.ops := landBc_keeps State.ops (fun _ _ => rfl) t s
theorem landBc_others (t : Nat) (s : State) : (landBc t s).others = s.others := landBc_keeps State.others (fun _ _ => rfl) t s

/-- What Equinox notes changes no memory (R360). -/
theorem eqxNote_mem (s : State) (c : Cohort) (k : Kern) (core a : Nat) (arrives new : Bool) :
    (s.eqxNote c k core a arrives new).mem = s.mem := by
  unfold State.eqxNote; repeat' split
  all_goals rfl

/-- Nor do bytes that later writes leave alone. -/
@[simp] theorem trim_mem (s : State) (core : Nat) (as : List Nat) (b : Option Nat) : (s.trim core as b).mem = s.mem := by
  unfold State.trim; split <;> rfl
@[simp] theorem trim_spad (s : State) (core : Nat) (as : List Nat) (b : Option Nat) : (s.trim core as b).spad = s.spad := by
  unfold State.trim; split <;> rfl

/-- An effect on the scratchpad changes no global memory (R28). -/
theorem applyFx_mem (s : State) (x : Fx) : (applyFx s x).mem = s.mem := by
  unfold applyFx; dsimp only; rw [trim_mem, State.setPad_mem]
  split
  · exact eqxNote_mem ..
  · rfl

theorem landFxGo_mem (t : Nat) : ∀ (n i : Nat) (s : State), (landFxGo t n i s).mem = s.mem
  | 0, _, _ => rfl
  | n + 1, i, s => by
    unfold landFxGo
    split
    · rfl
    · split
      · rfl
      · split
        · exact landFxGo_mem t n _ _
        · exact (landFxGo_mem t n i _).trans (applyFx_mem _ _)

/-- Results and effects that land change no global memory (R28, R32). -/
@[simp] theorem State.land_mem (s : State) : s.land.mem = s.mem := by
  unfold State.land; dsimp only
  split
  · split
    · rfl
    · exact landBc_mem _ _
  · split
    · rw [fixResults_mem]; exact landFxGo_mem _ _ _ _
    · exact (landBc_mem _ _).trans ((fixResults_mem _ _).trans (landFxGo_mem _ _ _ _))

/-- A write of the trap frame changes no global memory. -/
theorem ownWrite_mem (s : State) (a : Nat) (bs : List Byte) : (s.ownWrite a bs).mem = s.mem := by
  unfold State.ownWrite State.poke; dsimp only; rw [trim_mem]; exact fixFx_mem _ _

/-- A trap changes no global memory (R362). -/
theorem takeTrap_mem (s : State) (e : Flt) (w l : W64) (o : Nat) : (takeTrap s e w l o).mem = s.mem := by
  unfold takeTrap; split
  · exact ownWrite_mem _ _ _
  · exact cohortFault_mem _ _ _

end Sys2Proof.Machine
end

