-- ==== Sys2Proof/Tests/Slice0.lean ====
section
/-! SUPPORT. Tests: the well-formedness smoke, words that the spec writes out with what they decode to, and a state and operands that meet
the hypotheses of each statement. Expected results come from the spec's tables and worked encodings. -/
namespace Sys2Proof.Tests

open Sys2Proof Sys2Proof.Machine Sys2Proof.Claims

set_option Elab.async false

/-! ## Helpers -/

/-- What an instruction decodes to, if it does. -/
def reads (us : List W32) (i : Instr) : Bool := match decode us with | .ok j => j == i | .error _ => false
def refuses (us : List W32) (e : Flt) : Bool := match decode us with | .ok _ => false | .error x => x == e

/-- The checks of an issue as a Bool, for a gang that is not checked. -/
def letsB (s : State) (v0 v : View) (also : Also := .none_) : Bool :=
  (decodeFault s.land.g v0 v).isNone && (s.land.pair s.land.coh.pair).allFree s.land.g.core (s.land.units v also) && !s.land.g.checks
theorem lets_of {s : State} {v0 v : View} {also : Also} (h : letsB s v0 v also = true) : s.lets v0 v also := by
  unfold letsB at h
  simp only [Bool.and_eq_true, Bool.not_eq_true'] at h
  exact ⟨Option.isNone_iff_eq_none.mp h.1.1, h.1.2, fun hc => absurd (h.2.symm.trans hc) (by decide)⟩

/-- A word of classes V, K, M, P, E and X issues and acts. -/
def issuesF (s : State) (op : Nat) (f : Fields) (also : State → Fields → Also := noAlso) : Prop :=
  s.letsF op f also ∧ (s.readsF op f also).acts f.h = true
def runs (s : State) (op : Nat) (f : Fields) (also : State → Fields → Also := noAlso) : Bool :=
  letsB s (.cf op f) (.cf op (s.stepped f)) (also s.land (s.stepped f)) && (s.readsF op f also).acts f.h
theorem runs_of {s : State} {op : Nat} {f : Fields} {also : State → Fields → Also} (h : runs s op f also = true) :
    issuesF s op f also := by
  unfold runs at h
  rw [Bool.and_eq_true] at h
  exact ⟨lets_of h.1, h.2⟩

/-- A check that passes. -/
def okB (x : Except Flt Unit) : Bool := match x with | .ok _ => true | .error _ => false
theorem ok_of {x : Except Flt Unit} (h : okB x = true) : x = .ok () := by
  cases x with
  | ok => rfl
  | error => exact absurd h (by simp [okB])

/-- Each element of a list has what stands beside it in another. -/
theorem beside {α β : Type} {p : α × β → Bool} : ∀ (xs : List α) (ws : List β), xs.length ≤ ws.length →
    (xs.zip ws).all p = true → ∀ x ∈ xs, ∃ w, p (x, w) = true
  | [], _, _, _, _, hx => nomatch hx
  | _ :: _, [], hl, _, _, _ => absurd hl (by simp)
  | x :: xs, w :: ws, hl, h, y, hy => by
    rw [List.zip_cons_cons, List.all_cons, Bool.and_eq_true] at h
    rcases List.mem_cons.mp hy with rfl | hy
    · exact ⟨w, h.1⟩
    · exact beside xs ws (Nat.le_of_succ_le_succ hl) h.2 y hy

/-- The fields of a word without a literal, from their codes. -/
def fl (d a b c minor : Nat) : Fields :=
  fields 0 (BitVec.ofNat 9 d) (BitVec.ofNat 9 a) (BitVec.ofNat 9 b) (BitVec.ofNat 9 c) (BitVec.ofNat 10 minor) .none
def jf (d : Nat) (off : BitVec 27) (join : Option (BitVec 32)) : JFields := { h := under 0, d := BitVec.ofNat 9 d, off := off, join := join, sub := 0 }
def sf (d a sreg : Nat) : SFields := { h := under 0, d := BitVec.ofNat 9 d, a := BitVec.ofNat 9 a, sreg := BitVec.ofNat 12 sreg, lit := .none }

/-- One gang of four lanes, 16 lane registers, a handler and a divergence stack of one entry; its cohort has a whole scratchpad. -/
def four : State :=
  let s := State.reset.withText []
  { s with g := { s.g with kn := { s.g.kn with w := [1, 1, 0, 0, 0, 0], regs := 16, handler := some 64 }
                           lanes := List.replicate 4 (Lane.init 16 1), s0 := { s.g.s0 with mask := 15 } } }
/-- With an s register set. -/
def withS (n : Nat) (x : W64) (s : State) : State := { s with g := { s.g with s := s.g.s.set n x } }
/-- With predicate 1 set as given in each lane. -/
def withP (p : Nat → Bool) (s : State) : State :=
  { s with g := { s.g with lanes := s.g.lanes.zipIdx.map fun x => { x.1 with p := if p x.2 then 3 else 1 } } }

/-! ## Well-formedness: one term that each check refuses -/

theorem test_wf_good : Instr.wellFormed (.sadd (fl 264 265 266 0 64)) = true := by decide +kernel
theorem test_wf_reserved : Instr.wellFormed (.nop (fl 1 0 0 0 0)) = false := by decide +kernel
theorem test_wf_minor : Instr.wellFormed (.sadd (fl 264 265 266 0 65)) = true ∧ Instr.wellFormed (.sadd (fl 264 265 266 0 66)) = false := by
  decide +kernel
theorem test_wf_destination : Instr.wellFormed (.sadd (fl 4 265 266 0 64)) = false := by decide +kernel
theorem test_wf_predicate : Instr.wellFormed (.elect (fl 320 0 0 0 0)) = false := by decide +kernel
theorem test_wf_pair : Instr.wellFormed (.mov (fl 4 6 0 0 896)) = true ∧ Instr.wellFormed (.mov (fl 5 6 0 0 896)) = false := by decide +kernel
theorem test_wf_literal : Instr.wellFormed (.sadd (fl 264 384 265 0 64)) = false := by decide +kernel
theorem test_wf_no_literal : Instr.wellFormed (.sadd { fl 264 265 266 0 64 with lit := .w32 7 }) = false := by decide +kernel
theorem test_wf_step : Instr.wellFormed .slackTick = false := by decide +kernel

/-! ## Decoding: words that the spec writes out -/

theorem test_decode_samples : sampleWords.all (fun x => reads x.1 x.2 && encode x.2 == x.1) = true := by decide +kernel

/-- The units of a base word, and those of a word with a literal of one unit. -/
def units (w : Nat) : List W32 := [BitVec.ofNat 32 w, BitVec.ofNat 32 (w / 2 ^ 32)]
def unitsL (w l : Nat) : List W32 := units w ++ [BitVec.ofNat 32 l]
def lit (f : Fields) (l : Nat) : Fields := { f with lit := .w32 (BitVec.ofNat 32 l) }

/-- R94, R99 of spec/03 and spec/05: control words. -/
theorem test_decode_control :
    reads (units 0x0A0020BFFFFFF800) (.loop (jf 261 (-2) none)) = true ∧
    reads (units 0x1400282000000000) (.elect (fl 321 0 0 0 0)) = true ∧
    reads (units 0x0B00033000000000) (.rpt { h := under 0, nrep := 3, mask := 3, strd := 0 }) = true ∧
    reads (units 0x0200001FFFFFE800) (.bra (jf 0 (-6) none)) = true := by decide +kernel

/-- STALL 3 and an l code; a 32-bit literal (spec/03). -/
theorem test_decode_float :
    reads (units 0x7B01851580000240) (.rsqrt { fl 40 344 0 0 0x240 with h := { n := false, g := 0, stall := 3, region := false } }) = true ∧
    reads (unitsL 0x730005028C041E40 0x3C800000) (.fma (lit (fl 40 40 384 263 0x240) 0x3C800000)) = true := by decide +kernel

theorem test_decode_lanes :
    reads (units 0x8500006010480AC0) (.cvtef (fl 3 1 9 2 0x2C0)) = true ∧
    reads (units 0x8400000000300280) (.cvt (fl 0 0 6 0 0x280)) = true ∧
    reads (units 0xCC00003060000000) (.kset { h := under 0, d := 1, a := 262, sreg := 0, lit := .none }) = true := by decide +kernel

theorem test_decode_planes :
    reads (units 0xA40021B0A8580280) (.pew (fl 269 266 267 0 0x280)) = true ∧
    reads (units 0xA9002190B0000000) (.prefold (fl 268 267 0 0 0)) = true ∧
    reads (units 0xA60021D0DB080000) (.prot (fl 270 269 353 0 0)) = true ∧
    reads (units 0xA800227120004280) (.pfold (fl 275 274 0 16 0x280)) = true ∧
    reads (units 0xAB002170A0000082) (.pscan (fl 267 266 0 0 0x082)) = true := by decide +kernel

theorem test_decode_grid :
    reads (units 0xAE0000A000050800) (.cfd (fl 5 0 0 322 0)) = true ∧
    reads (units 0xAF0000C010280240) (.kadd (fl 6 1 5 0 0x240)) = true := by decide +kernel

theorem test_decode_scratch :
    reads (units 0xC200009080100010) (.ldx (fl 4 264 2 0 0x010)) = true ∧
    reads (units 0xC40000D040081CA0) (.atoms (fl 6 260 1 7 0x0A0)) = true ∧
    reads (unitsL 0xC70020D32C0000A0 0x10) (.barv (lit (fl 262 306 384 0 0x0A0) 0x10)) = true ∧
    reads (unitsL 0xC80000132C044480 0x30) (.bexp (lit (fl 0 306 384 273 0x080) 0x30)) = true := by decide +kernel

theorem test_decode_engines :
    reads (units 0xD000228020400921) (.gld (fl 276 2 8 2 0x121)) = true ∧
    reads (units 0xD3002512693CC921) (.watch (fl 296 294 295 306 0x121)) = true ∧
    reads (units 0xD400229048E00008) (.cpy (fl 276 260 284 0 0x008)) = true ∧
    reads (units 0xD61022800834C907) (.sct { fl 276 0 262 306 0x107 with h := under 2 }) = true ∧
    reads (units 0xD4002290A8780281) (.cpy (fl 276 266 271 0 0x281)) = true := by decide +kernel

theorem test_decode_matrix :
    reads (units 0xE00024B048980395) (.mma (fl 293 260 275 0 0x395)) = true ∧
    reads (units 0xE2002370489DE880) (.scout (fl 283 260 275 378 0x080)) = true ∧
    reads (units 0xE30023313B400400) (.hzn (fl 281 275 360 1 0)) = true ∧
    reads (units 0xE600251118580240) (.qnt (fl 296 273 267 0 0x240)) = true ∧
    reads (units 0xE800253068980001) (.bput (fl 297 262 275 0 0x001)) = true := by decide +kernel

/-- The words of spec/03 that trap, with their causes. -/
theorem test_decode_refused :
    refuses (units 0) ⟨.illegalOpcode, 0, 0⟩ = true ∧
    (match decode (unitsL 0x730005028C060240 0) with | .error e => e.cause == .literalMisuse | .ok _ => false) = true ∧
    (match decode (units 0x730005028C060640 ++ [0, 0]) with | .error e => e.cause == .illegalOperand | .ok _ => false) = true ∧
    (match decode (unitsL 0x730005028C041E70 0) with | .error e => e.cause == .reservedField | .ok _ => false) = true ∧
    (match decode (unitsL (0x730005028C041E40 + 2 ^ 55) 0) with | .error e => e.cause == .reservedField | .ok _ => false) = true := by
  decide +kernel

/-- A step runs a word that stands where it fetches, right after reset: `sdiv.i64 s9, s8, -1` of 0 leaves 0 in flight for s9. -/
theorem test_step_runs : (match step (State.reset.withFetchWord 64 0x240021308B8000C0) with
    | .next t => t.g.pend.map (fun p => (p.tgt, p.val, p.due)) == [(.s 9, 0, 2)] && t.g.here.pc == 8
    | _ => false) = true := by decide +kernel

/-! ## Values that the spec works out -/

/-- R111: `smulh.n64` of all ones with itself; `smul.i64.sat` of 2^62 and 4. -/
theorem test_smulh : (execSmulh (fl 264 265 265 0 0x100) (withS 9 (-1) four) |> fun o => match o with
    | .next t => t.g.pend.map (·.val) == [0xFFFFFFFFFFFFFFFE] | _ => false) = true := by decide +kernel
theorem test_smul_sat : (execSmul (fl 264 265 266 0 0x0C1) (withS 10 4 (withS 9 (2 ^ 62) four)) |> fun o => match o with
    | .next t => t.g.pend.map (·.val) == [0x7FFFFFFFFFFFFFFF] | _ => false) = true := by decide +kernel

/-- R249, R251, R277: promises of spec/13 and spec/15. -/
theorem test_promises : promiseWord 2 0 5476 = 0x0200000000001564 ∧ promiseWord 3 0 19460 = 0x0300000000004C04 ∧
    (slackOf 1 4 416).1 = 15 ∧ 5000 + 416 + 4 * 15 = 5476 := ⟨rfl, rfl, rfl, rfl⟩

/-! ## Hypotheses: scalar and lane words -/

/-- Fields from five codes. -/
def fl5 (x : Nat × Nat × Nat × Nat × Nat) : Fields := fl x.1 x.2.1 x.2.2.1 x.2.2.2.1 x.2.2.2.2

/-- s registers 8 to 11 as codes, and the MINOR of each scalar case. -/
def scalarW : List (Nat × Nat × Nat × Nat × Nat) :=
  (List.replicate 8 (264, 265, 266, 0, 64)) ++ [(264, 265, 266, 267, 64), (264, 265, 266, 267, 256)] ++
  (List.replicate 3 (264, 265, 266, 0, 0)) ++ [(264, 265, 266, 0, 64), (264, 265, 266, 0, 128), (264, 265, 266, 0, 64),
   (264, 265, 266, 267, 896), (264, 265, 0, 0, 64), (264, 265, 266, 0, 192), (264, 265, 266, 267, 896), (264, 265, 0, 0, 0),
   (264, 265, 0, 0, 0), (264, 265, 0, 0, 0), (264, 0, 266, 0, 0), (264, 321, 266, 0, 3), (264, 265, 352, 0, 0)]

theorem test_scalar_runs : (scalarCases.zip scalarW).all (fun y => runs four y.1.1 (fl5 y.2)) = true := by decide +kernel
theorem test_scalar_witness : ∀ x ∈ scalarCases, ∃ f, issuesF four x.1 f := by
  intro x hx
  obtain ⟨w, h⟩ := beside scalarCases scalarW (by decide +kernel) test_scalar_runs x hx
  exact ⟨fl5 w, runs_of h⟩
theorem test_pdesc_witness : issuesF four 0xA1 (fl 264 265 0 0 0) descAlso := runs_of (by decide +kernel)

/-- v4, v5 to v7 as sources. -/
def laneW : List (Nat × Nat × Nat × Nat × Nat) :=
  (List.replicate 4 (4, 5, 6, 0, 64)) ++ [(4, 5, 6, 7, 64), (4, 5, 6, 0, 64), (4, 5, 6, 0, 64), (4, 5, 0, 0, 64), (4, 5, 0, 0, 64),
   (4, 5, 6, 7, 448), (4, 5, 6, 7, 128)] ++ (List.replicate 3 (4, 5, 6, 0, 0)) ++
  [(4, 5, 0, 0, 0), (4, 5, 6, 0, 64), (4, 5, 6, 0, 128), (4, 5, 6, 0, 64), (4, 5, 6, 0, 0), (4, 5, 6, 0, 64), (4, 5, 6, 7, 0),
   (4, 5, 0, 0, 0), (4, 5, 6, 321, 0), (4, 5, 0, 0, 0), (4, 5, 6, 7, 0), (4, 5, 0, 0, 0), (4, 5, 0, 0, 0), (4, 5, 0, 0, 0),
   (4, 321, 0, 0, 128)] ++ (List.replicate 3 (4, 5, 6, 0, 576)) ++ [(4, 5, 6, 7, 576), (4, 5, 6, 0, 576), (4, 5, 6, 0, 576)] ++
  (List.replicate 12 (4, 5, 0, 0, 576)) ++ [(4, 5, 6, 0, 576), (4, 5, 6, 0, 64), (4, 5, 6, 7, 640)]

theorem test_lane_runs : (laneCases.zip laneW).all (fun y => runs four y.1.1 (fl5 y.2)) = true := by decide +kernel
theorem test_lane_witness : ∀ x ∈ laneCases, ∃ f, four.letsF x.1 f := by
  intro x hx
  obtain ⟨w, h⟩ := beside laneCases laneW (by decide +kernel) test_lane_runs x hx
  exact ⟨fl5 w, (runs_of h).1⟩

def predW : List (Nat × Nat × Nat × Nat × Nat) :=
  [(322, 5, 6, 321, 65), (322, 5, 6, 321, 577), (322, 321, 321, 0, 0), (322, 321, 321, 0, 0), (322, 321, 321, 0, 0), (322, 321, 0, 0, 0),
   (322, 5, 0, 0, 0)]

theorem test_predicate_runs : (predCases.zip predW).all (fun y => runs four y.1.1 (fl5 y.2)) = true := by decide +kernel
theorem test_predicate_witness : ∀ x ∈ predCases, ∃ f, four.letsF x.1 f := by
  intro x hx
  obtain ⟨w, h⟩ := beside predCases predW (by decide +kernel) test_predicate_runs x hx
  exact ⟨fl5 w, (runs_of h).1⟩

/-! ## Hypotheses: control words -/

theorem test_nop_witness : Instr.wellFormed (.nop (fl 0 0 0 0 0)) = true ∧ four.letsF 0x01 (fl 0 0 0 0 0) :=
  ⟨by decide +kernel, (runs_of (s := four) (op := 1) (by decide +kernel)).1⟩

/-- A word of class J, or S, issues and acts. -/
def issuesJ (s : State) (op : Nat) (f : JFields) : Prop := s.letsJ op f ∧ (s.readsJ op f).acts f.h = true
def issuesS (s : State) (op : Nat) (f : SFields) : Prop := s.letsS op f ∧ (s.readsS op f).acts f.h = true
def runsJ (s : State) (op : Nat) (f : JFields) : Bool := letsB s (.cj op f) (.cj op f) && (s.readsJ op f).acts f.h
theorem runsJ_of {s : State} {op : Nat} {f : JFields} (h : runsJ s op f = true) : issuesJ s op f := by
  unfold runsJ at h
  rw [Bool.and_eq_true] at h
  exact ⟨lets_of h.1, h.2⟩
def runsS (s : State) (op : Nat) (f : SFields) : Bool := letsB s (.cs op f) (.cs op f) && (s.readsS op f).acts f.h
theorem runsS_of {s : State} {op : Nat} {f : SFields} (h : runsS s op f = true) : issuesS s op f := by
  unfold runsS at h
  rw [Bool.and_eq_true] at h
  exact ⟨lets_of h.1, h.2⟩

/-- s5 as D: an aligned target, and one that is not. -/
theorem test_branch_witness : ∀ op ∈ [0x02, 0x07], ∃ f, issuesJ four op f := by
  intro op h
  refine ⟨jf 0 (-6) none, runsJ_of ?_⟩
  revert op
  decide +kernel
theorem test_register_branch_witness : ∀ op ∈ [0x03, 0x04, 0x0A], ∃ f, issuesJ four op f := by
  intro op h
  refine ⟨jf 261 (-2) none, runsJ_of ?_⟩
  revert op
  decide +kernel
theorem test_jump_witness : ∀ op ∈ [0x06, 0x08, 0x09], ∃ f, issuesJ four op f ∧
    ((four.readsJ op f).sreg (four.readsJ op f).cyc 5).toNat % 4 = 0 ∧ issuesJ (withS 5 2 four) op f ∧
    (((withS 5 2 four).readsJ op f).sreg ((withS 5 2 four).readsJ op f).cyc 5).toNat % 4 ≠ 0 := by
  intro op h
  refine ⟨jf 261 0 none, runsJ_of ?_, ?_, runsJ_of ?_, ?_⟩ <;> (revert op; decide +kernel)
theorem test_rpt_witness : four.letsQ { h := under 0, nrep := 63, mask := 15, strd := 3 } := lets_of (by decide +kernel)
theorem test_uniform_control_witness : ∀ x ∈ [(0x0D, fl 0 0 0 0 0), (0x0E, fl 0 265 0 0 0), (0x10, fl 0 0 0 0 0), (0x0C, fl 0 0 0 0 0)],
    issuesF four x.1 x.2 := fun x h => runs_of (by revert x; decide +kernel)

/-- In handler mode. -/
def handler (s : State) : State := { s with g := { s.g with mode := true, tcause := 1 } }
theorem test_handler_witness : ∀ x ∈ [(0x0C, fl 0 0 0 0 0), (0x0F, fl 0 0 0 0 0)],
    issuesF (handler four) x.1 x.2 ∧ (handler four).land.g.mode = true :=
  fun x h => ⟨runs_of (by revert x; decide +kernel), by decide +kernel⟩
theorem test_system_witness : ∀ x ∈ [(0x11, sf 264 0 0x00D), (0x12, sf 0 265 0x001), (0xCC, sf 1 262 0)],
    issuesS four x.1 x.2 := fun x h => runsS_of (by revert x; decide +kernel)

/-- `tret` with a register result in flight, and with none. -/
def inFlight (s : State) : State := { s with g := { s.g with pend := [{ due := 3, slot := 0, tgt := .s 9, val := 1 }] } }
theorem test_tret_witness : issuesF (handler (inFlight four)) 0x0F (fl 0 0 0 0 0) ∧
    ((handler (inFlight four)).readsF 0x0F (fl 0 0 0 0 0)).g.pend ≠ [] ∧ issuesF (handler four) 0x0F (fl 0 0 0 0 0) ∧
    ((handler four).readsF 0x0F (fl 0 0 0 0 0)).g.pend = [] :=
  ⟨runs_of (by decide +kernel), by decide +kernel, runs_of (by decide +kernel), by decide +kernel⟩

/-- The frame's first word is poisoned. -/
def poisonedFrame : State := { handler four with spoison := [(0, (handler four).tframe)] }
def waiting (s : State) : State := { s with g := { s.g with s0 := { s.g.s0 with block := .tret 1 0 } } }
theorem test_tret_poison_witness : issuesF poisonedFrame 0x0F (fl 0 0 0 0 0) ∧ (poisonedFrame.readsF 0x0F (fl 0 0 0 0 0)).returnPoison = true ∧
    ((handler four).readsF 0x0F (fl 0 0 0 0 0)).returnPoison = false ∧ (waiting poisonedFrame).g.s0.returns 0 = some 1 ∧
    ((waiting poisonedFrame).atSlot 0).returnPoison = true ∧ ((waiting (handler four)).atSlot 0).returnPoison = false :=
  ⟨runs_of (by decide +kernel), by decide +kernel, by decide +kernel, by decide +kernel, by decide +kernel, by decide +kernel⟩

/-! ## Hypotheses: words across lanes -/

theorem test_across_witness : ∀ x ∈ [(0x2E, fl 322 265 266 321 65), (0x39, fl 4 265 266 0 0), (0x85, fl 3 1 9 2 0x2C0),
    (0xAE, fl 4 5 0 321 0), (0xAF, fl 4 5 6 0 64), (0x14, fl 322 0 0 0 0)], issuesF four x.1 x.2 :=
  fun x h => runs_of (by revert x; decide +kernel)
theorem test_moves_witness : issuesF four 0xA0 (fl 4 5 266 0 0) State.mvnAlso ∧ issuesF four 0xAD (fl 4 5 0 0 0) bpermAlso :=
  ⟨runs_of (by decide +kernel), runs_of (by decide +kernel)⟩
theorem test_elect_witness : (four.readsF 0x14 (fl 322 0 0 0 0)).performing (under 0) = 0 :: [1, 2, 3] ∧
    Instr.wellFormed (.elect (fl 322 0 0 0 0)) = true ∧ four.letsF 0x14 (fields 1 322 0 0 0 0 .none) ∧
    (four.readsF 0x14 (fields 1 322 0 0 0 0 .none)).performing (under 1) = [] :=
  ⟨by decide +kernel, by decide +kernel, lets_of (by decide +kernel), by decide +kernel⟩

/-- A table of 256 bytes in the scratchpad from linear address 0 on: the identity. -/
def table : State := withS 9 0 { four with spad := [(0, cellsOf 0 ((List.range 256).map fun i => BitVec.ofNat 8 i))] }
theorem test_bset_witness : issuesF table 0xAC (fl 0 265 0 0 0) ∧
    let u := table.readsF 0xAC (fl 0 265 0 0 0)
    let accs := (List.range 16).map fun i => u.linAcc 0 ((u.sreg u.cyc 9).toNat + 16 * i) 16
    u.unheld ∧ u.checkAccs accs 16 .read false = .ok () ∧
    ((accs.flatMap fun x => (u.settle (accs.map (Acc.span u.coh 16))).slotRead (x.span u.coh 16)).map (·.toNat)) = List.range 256 :=
  ⟨runs_of (by decide +kernel), rfl, ok_of (by decide +kernel), by decide +kernel⟩

/-- A check that fails with a cause. -/
def failB (x : Except Flt Unit) (c : Cause) : Bool := match x with | .ok _ => false | .error e => e.cause == c
/-- A table of zeros, and one at no multiple of 16. -/
theorem test_bset_trap_witness : runs (withS 9 0 four) 0xAC (fl 0 265 0 0 0) = true ∧ runs (withS 9 8 four) 0xAC (fl 0 265 0 0 0) = true ∧
    (let u := (withS 9 8 four).readsF 0xAC (fl 0 265 0 0 0)
     failB (u.checkAccs ((List.range 16).map fun i => u.linAcc 0 ((u.sreg u.cyc 9).toNat + 16 * i) 16) 16 .read false) .misaligned = true) ∧
    (let u := (withS 9 0 four).readsF 0xAC (fl 0 265 0 0 0)
     let accs := (List.range 16).map fun i => u.linAcc 0 ((u.sreg u.cyc 9).toNat + 16 * i) 16
     okB (u.checkAccs accs 16 .read false) = true ∧
     (accs.flatMap fun x => (u.settle (accs.map (Acc.span u.coh 16))).slotRead (x.span u.coh 16)) = List.replicate 256 0) := by decide +kernel

/-- The two sides of a `brv` on p1, with a join. -/
def brvF : JFields := jf 321 6 (some 10)
/-- Slot 1 live with lane 3, and e stack entries. -/
def both (e : Nat) (s : State) : State :=
  { s with g := { s.g with s0 := { s.g.s0 with mask := 7 }, s1 := { Slot.free with live := true, mask := 8, pc := 64 }, stackd := e } }
/-- It issues, with the lanes that take it and those that do not. -/
def brvB (s : State) (takes rest : List Nat) : Bool :=
  let u := s.readsJ 5 brvF
  letsB s (.cj 5 brvF) (.cj 5 brvF) && (u.g.active.filter fun k => u.guard brvF.h k &&
    ((u.opnd .b32 .none u.cyc k (.ofCode brvF.d.toNat) != 0) != (brvF.sub = 1))) == takes &&
  (u.g.active.filter fun k => !(takes.contains k)) == rest

theorem test_brv_one_side_witness : brvB (withP (fun _ => true) four) [0, 1, 2, 3] [] = true ∧
    brvB (withP (fun _ => false) four) [] [0, 1, 2, 3] = true := by decide +kernel
theorem test_brv_free_slot_witness : brvB (withP (· < 2) four) [0, 1] [2, 3] = true ∧
    (((withP (· < 2) four).readsJ 5 brvF).g.slot 1).live = false ∧ ((withP (· < 2) four).readsJ 5 brvF).g.cur = 0 := by decide +kernel
theorem test_brv_stack_witness : ∀ e ∈ [0, 1], brvB (both e (withP (· < 1) four)) [0] [1, 2] = true ∧
    (((both e (withP (· < 1) four)).readsJ 5 brvF).g.slot 1).live = true ∧
    ((both e (withP (· < 1) four)).readsJ 5 brvF).g.stackd = e ∧ ((both e four).readsJ 5 brvF).g.kn.divd = 1 := by decide +kernel

/-! ## Hypotheses: planes -/

/-- A descriptor of 2^lpx by 2^lpy words, of depth 1: in registers from loc on, or in the scratchpad at offset loc (R154). -/
def dw (lpx lpy : Nat) (res : Bool) (loc : Nat) : W64 :=
  BitVec.ofNat 64 (lpx + 16 * lpy + if res then 4096 + loc * 2 ^ 21 else loc * 2 ^ 13)
def onPlanes (d a b : W64) : State := withS 8 d (withS 9 a (withS 10 b four))
def planeB (x : PlaneCase) (s : State) (f : Fields) : Bool :=
  let u := s.readsF x.op f x.also; let g := s.stepped f
  runs s x.op f x.also && okB (checkDescs u.g (u.descD g).depth (x.all u g)) && x.folds u g && okB (u.planeAccess g.h (u.descD g) (x.srcs u g))
theorem plane_of {x : PlaneCase} {s : State} {f : Fields} (h : planeB x s f = true) :
    issuesF s x.op f x.also ∧ x.ready (s.readsF x.op f x.also) (s.stepped f) := by
  unfold planeB at h
  simp only [Bool.and_eq_true] at h
  obtain ⟨⟨⟨h1, h2⟩, h3⟩, h4⟩ := h
  exact ⟨runs_of h1, ok_of h2, h3, ok_of h4⟩

def planeW : List (State × Fields) :=
  [(onPlanes (dw 1 1 false 4) (dw 1 1 true 256) 0, fl 264 265 0 0 0), (onPlanes (dw 1 1 true 8188) (dw 1 1 false 15) 0, fl 264 265 0 0 0),
   (onPlanes (dw 1 1 false 4) (dw 2 1 false 5) 0 |> withS 8 (dw 2 1 false 8) |> withS 10 (dw 2 1 true 256), fl 264 265 266 0 64),
   (onPlanes (dw 1 1 false 4) (dw 1 1 false 5) 1, fl 264 265 266 0 0), (onPlanes (dw 1 1 false 4) (dw 1 1 false 5) 1, fl 264 265 266 0 0),
   (onPlanes (dw 1 1 false 4) (dw 0 1 false 5) 0, fl 264 265 0 0 0), (onPlanes (dw 1 1 false 4) (dw 1 1 false 5) 0, fl 264 265 0 0 0),
   (onPlanes (dw 1 1 false 4) (dw 1 1 false 5) 0, fl 264 265 0 0 0), (onPlanes (dw 1 1 false 4) 0 0, fl 264 265 0 0 0),
   (onPlanes (dw 0 1 false 4) (dw 1 1 false 5) 0, fl 264 265 0 0 64), (onPlanes (dw 1 1 false 4) (dw 1 1 false 5) 0, fl 264 265 0 0 64)]
theorem test_planes_ready : (planeCases.zip planeW).all (fun y => planeB y.1 y.2.1 y.2.2) = true := by decide +kernel
theorem test_plane_witness : ∀ x ∈ planeCases, ∃ (s : State) (f : Fields),
    issuesF s x.op f x.also ∧ x.ready (s.readsF x.op f x.also) (s.stepped f) := by
  intro x hx
  obtain ⟨w, h⟩ := beside planeCases planeW (by decide +kernel) test_planes_ready x hx
  exact ⟨w.1, w.2, plane_of h⟩
/-- `pshift` with a source of 8 depth planes for a destination of one, with shapes that differ, and with a scratchpad source that is poisoned. -/
theorem test_plane_trap_witness : let x := shiftCase 0xA5 .pshift false; let f := fl 264 265 266 0 0
    (let s := onPlanes (dw 1 1 false 4) (dw 1 1 false 5 + 2 ^ 34 * 3) 1; let u := s.readsF x.op f x.also
     runs s x.op f x.also = true ∧ failB (checkDescs u.g (u.descD f).depth (x.all u f)) .descInvalid = true) ∧
    (let s := onPlanes (dw 1 1 false 4) (dw 0 1 false 5) 1; let u := s.readsF x.op f x.also
     runs s x.op f x.also = true ∧ okB (checkDescs u.g (u.descD f).depth (x.all u f)) = true ∧ x.folds u f = false) ∧
    (let s := { onPlanes (dw 1 1 false 4) (dw 1 1 true 0) 1 with spoison := [(0, 0)] }; let u := s.readsF x.op f x.also
     runs s x.op f x.also = true ∧ okB (checkDescs u.g (u.descD f).depth (x.all u f)) = true ∧ x.folds u f = true ∧
     failB (u.planeAccess f.h (u.descD f) (x.srcs u f)) .poison = true) := by
  unfold shiftCase; dsimp only; decide +kernel
theorem test_unheld_witness : four.unheld := rfl
/-- A slot whose earlier `.acq` part has an RMW in flight, and one that has a single access in flight. -/
def acqRmw : State :=
  { four with g := { four.g with s0 := { four.g.s0 with acq := { ops := [], nums := [7] } }
                                 fx := [{ due := 9, slot := 0, core := 0, addr := 0, len := 4, deps := [], op := .store [0, 0, 0, 0], num := 7 }] } }
def acqOp : State :=
  { four with g := { four.g with s0 := { four.g.s0 with acq := { ops := [0], nums := [] } } }
              ops := [four.opBase 0xD0 3 (fl 264 4 266 0 0)] }
theorem test_acq_held_witness : ∀ s ∈ [acqRmw, acqOp], issuesF s 0x36 (fl 264 265 352 0 16) ∧ s.letsF 0xC0 (fl 4 265 352 0 16) ∧
    (s.readsF 0x36 (fl 264 265 352 0 16)).acqLeft = s.g.s0.acq := by
  intro s h
  refine ⟨runs_of ?_, (runs_of (s := s) (op := 0xC0) ?_).1, ?_⟩ <;> (revert s; decide +kernel)

/-! ## Hypotheses: scratchpad words -/

theorem test_uniform_access_witness : issuesF four 0x36 (fl 264 265 352 0 16) ∧ issuesF four 0x37 (fl 264 265 352 0 16) ∧
    (let u := four.readsF 0x36 (fl 264 265 352 0 16)
     u.unheld ∧ u.checkAccs [uniAcc u (fl 264 265 352 0 16)] 4 .read false = .ok ()) ∧
    (let u := four.readsF 0x37 (fl 264 265 352 0 16)
     u.unheld ∧ u.checkAccs [uniAcc u (fl 264 265 352 0 16)] 4 .write false = .ok ()) :=
  ⟨runs_of (by decide +kernel), runs_of (by decide +kernel), ⟨rfl, ok_of (by decide +kernel)⟩, rfl, ok_of (by decide +kernel)⟩

/-- Accesses that fail their checks: misaligned, outside, and poisoned. -/
theorem test_access_trap_witness :
    (let s := withS 9 2 four; let u := s.readsF 0x36 (fl 264 265 352 0 16)
     runs s 0x36 (fl 264 265 352 0 16) = true ∧ failB (u.checkAccs [uniAcc u (fl 264 265 352 0 16)] 4 .read false) .misaligned = true) ∧
    (let s := withS 9 (2 ^ 22) four; let u := s.readsF 0x37 (fl 264 265 352 0 16)
     runs s 0x37 (fl 264 265 352 0 16) = true ∧ failB (u.checkAccs [uniAcc u (fl 264 265 352 0 16)] 4 .write false) .scratchBounds = true) ∧
    (let s := withS 9 8192 four; let f := fl 4 265 352 0 16
     (∀ op ∈ [0xC0, 0xC1], runs s op f = true) ∧ (∀ kind ∈ [AccKind.read, .write], let u := s.readsF 0xC0 f
       failB (u.checkAccs ((u.lperforming f.h).map (u.ldlAcc f)) 4 kind true) .scratchBounds = true)) ∧
    (let s := { four with spoison := [(0, 0)] }; let f := fl 4 265 352 5 0; let u := s.readsF 0xC4 f
     runs s 0xC4 f = true ∧ failB (u.checkAccs ((u.lperforming f.h).map (atomAcc u f)) 4 .rmw true) .poison = true) := by decide +kernel

/-- The last word of a lane, and the first, are accessed. -/
def accW : List (State × Fields) := [(withS 9 8188 four, fl 4 265 352 0 16), (withS 9 (2 ^ 21 - 4) four, fl 4 265 352 0 16)]
/-- A lane access issues and its checks pass. -/
def laneB (kind : AccKind) (x : Nat × (Fields → Instr) × (State → Fields → Nat → Acc)) (s : State) (f : Fields) : Bool :=
  let u := s.readsF x.1 f
  runs s x.1 f && u.acqHold.isNone && okB (u.checkAccs ((u.lperforming f.h).map (x.2.2 u (s.stepped f))) 4 kind true)
theorem lane_of {kind : AccKind} {x : Nat × (Fields → Instr) × (State → Fields → Nat → Acc)} {s : State} {f : Fields}
    (h : laneB kind x s f = true) : s.letsF x.1 f ∧ (s.readsF x.1 f).unheld ∧
    (s.readsF x.1 f).checkAccs (((s.readsF x.1 f).lperforming f.h).map (x.2.2 (s.readsF x.1 f) (s.stepped f))) 4 kind true = .ok () := by
  unfold laneB at h
  simp only [Bool.and_eq_true] at h
  exact ⟨(runs_of h.1.1).1, Option.isNone_iff_eq_none.mp h.1.2, ok_of h.2⟩
theorem test_lane_load_witness : ∀ x ∈ laneLoads, ∃ (s : State) (f : Fields), s.letsF x.1 f ∧ (s.readsF x.1 f).unheld ∧
    (s.readsF x.1 f).checkAccs (((s.readsF x.1 f).lperforming f.h).map (x.2.2 (s.readsF x.1 f) (s.stepped f))) 4 .read true = .ok () := by
  intro x hx
  obtain ⟨w, h⟩ := beside (p := fun y => laneB .read y.1 y.2.1 y.2.2) laneLoads accW (by decide +kernel) (by decide +kernel) x hx
  exact ⟨w.1, w.2, lane_of h⟩
theorem test_lane_store_witness : ∀ x ∈ laneStores, ∃ (s : State) (f : Fields), s.letsF x.1 f ∧ (s.readsF x.1 f).unheld ∧
    (s.readsF x.1 f).checkAccs (((s.readsF x.1 f).lperforming f.h).map (x.2.2 (s.readsF x.1 f) (s.stepped f))) 4 .write true = .ok () := by
  intro x hx
  obtain ⟨w, h⟩ := beside (p := fun y => laneB .write y.1 y.2.1 y.2.2) laneStores accW (by decide +kernel) (by decide +kernel) x hx
  exact ⟨w.1, w.2, lane_of h⟩
theorem test_atoms_witness : four.letsF 0xC4 (fl 4 265 352 5 0) ∧ (let u := four.readsF 0xC4 (fl 4 265 352 5 0)
    u.unheld ∧ u.checkAccs ((u.lperforming (under 0)).map (atomAcc u (fl 4 265 352 5 0))) 4 .rmw true = .ok ()) :=
  ⟨(runs_of (by decide +kernel)).1, rfl, ok_of (by decide +kernel)⟩

/-- `atoms.rel` behind an effect that its latency does not outlast, and with nothing before it. -/
theorem test_atoms_held_witness : let f := fl 4 265 352 5 32
    let s := { four with g := { four.g with fx := [{ due := 90, slot := 0, core := 0, addr := 64, len := 4, deps := [], op := .store [0, 0, 0, 0] }] } }
    s.letsF 0xC4 f ∧ four.letsF 0xC4 f ∧ (s.stepped f).ord = 2 ∧ (let u := s.readsF 0xC4 f; u.relHeld (u.latency (.cf 0xC4 f)) = true) ∧
    (let u := four.readsF 0xC4 f; u.relHeld (u.latency (.cf 0xC4 f)) = false) :=
  ⟨(runs_of (by decide +kernel)).1, (runs_of (by decide +kernel)).1, by decide +kernel, by decide +kernel, by decide +kernel⟩

/-- A barrier object at linear address 0 that expects 1 arrival, with 1 left; and one that is broken. -/
def barState (left : Nat) : State := { four with spad := [(0, cellsOf 0 (leBytes 4 1 ++ leBytes 4 left ++ leBytes 8 0))] }
def barW : List Fields := [fl 0 265 352 266 0, fl 264 265 352 0 0, fl 0 265 352 266 0, fl 264 265 352 0 0]
/-- A barrier word issues, its checks pass, and it is turned away or not. -/
def barB (x : BarrierCase) (s : State) (f : Fields) (away : Bool) : Bool :=
  let u := s.readsF x.op f
  runs s x.op f && u.acqHold.isNone && okB (u.checkAccs [u.barAcc (s.stepped f)] 16 x.kind true) &&
  x.refuses u (s.stepped f) (u.barObj (u.barAcc (s.stepped f))) == away
theorem test_barriers_ready : (barrierCases.zip barW).all (fun y => barB y.1 (withS 10 1 (barState 1)) y.2 false) = true ∧
    (barrierCases.zip barW).all (fun y => barB y.1 (withS 10 0 (barState 2)) y.2 true) = true := by decide +kernel
theorem test_barrier_witness : ∀ x ∈ barrierCases, ∃ (s : State) (f : Fields), issuesF s x.op f ∧ (s.readsF x.op f).unheld ∧
    (s.readsF x.op f).checkAccs [(s.readsF x.op f).barAcc (s.stepped f)] 16 x.kind true = .ok () ∧
    x.refuses (s.readsF x.op f) (s.stepped f) ((s.readsF x.op f).barObj ((s.readsF x.op f).barAcc (s.stepped f))) = false := by
  intro x hx
  obtain ⟨w, h⟩ := beside (p := fun y => barB y.1 (withS 10 1 (barState 1)) y.2 false) barrierCases barW (by decide +kernel)
    test_barriers_ready.1 x hx
  unfold barB at h
  simp only [Bool.and_eq_true, beq_iff_eq] at h
  exact ⟨_, w, runs_of h.1.1.1, Option.isNone_iff_eq_none.mp h.1.1.2, ok_of h.1.2, h.2⟩
/-- An object that is poisoned. -/
theorem test_barrier_trap_witness : ∀ x ∈ (barrierCases.zip barW).drop 1, let s := { withS 10 1 (barState 1) with spoison := [(0, 0)] }
    runs s x.1.op x.2 = true ∧ (let u := s.readsF x.1.op x.2; failB (u.checkAccs [u.barAcc x.2] 16 x.1.kind true) .poison = true) := by
  decide +kernel
/-- The ends of the ranges of an object's words, and an object of each kind that an RMW leaves. -/
theorem test_phase_witness : phased 1 0 0 0xFFFF 1 0 = leBytes 4 1 ++ leBytes 4 1 ++ leBytes 8 0 ∧
    phased (2 ^ 32 - 1) 0 (2 ^ 32 - 1) 5 1 1 = leBytes 4 (2 ^ 32 - 1) ++ leBytes 4 0 ++ leBytes 4 (2 ^ 32 - 1) ++ leBytes 4 0x50003 := by
  decide +kernel
theorem test_btest_witness : issuesF (barState 1) 0xCA (fl 264 265 352 0 0) ∧ (let u := (barState 1).readsF 0xCA (fl 264 265 352 0 0)
    u.unheld ∧ u.checkAccs [u.barAcc (fl 264 265 352 0 0)] 16 .rmw true = .ok () ∧
    (u.barObj (u.barAcc (fl 264 265 352 0 0))).remaining ≤ (u.barObj (u.barAcc (fl 264 265 352 0 0))).expected) :=
  ⟨runs_of (by decide +kernel), rfl, ok_of (by decide +kernel), by decide +kernel⟩
theorem test_fence_witness : issuesF four 0xC5 (fl 0 0 0 0 16) := runs_of (by decide +kernel)
/-- `wait.all s7, s6, 1, 0` on a word of zeros. -/
theorem test_wait_witness : issuesF four 0xCB (fl 263 262 353 352 1) ∧ (let u := four.readsF 0xCB (fl 263 262 353 352 1)
    u.waitCheck (u.waitWords (fl 263 262 353 352 1)) = .ok ()) := ⟨runs_of (by decide +kernel), ok_of (by decide +kernel)⟩

/-! ## Hypotheses: channels and engines -/

/-- One channel of two slots of 16 bytes whose producer and consumer is the gang's own cohort; one message received and not released. -/
def chanState : State :=
  { four with g := { four.g with kn := { four.g.kn with chans := [{ prod := 0, cons := 0, slots := 2, size := 16, off := 0 }] } }
              cohorts := four.cohorts.map fun c => { c with chans := [{ sent := 1, landed := 1, recv := 1, rel := 0 }] } }
/-- `chsend` of the largest message, 16 bytes from address 0 on. -/
theorem test_chsend_witness : issuesF (withS 11 16 chanState) 0xD8 (fl 264 265 266 267 0) ∧
    (let u := (withS 11 16 chanState).readsF 0xD8 (fl 264 265 266 267 0)
     u.unheld ∧ ∃ x, u.g.kn.chans[u.chanArg (fl 264 265 266 267 0)]? = some x ∧ u.f3 = x.prod ∧
      u.sopnd .n64 .none 267 = x.size ∧ (u.sreg u.cyc 10).toNat = 0 ∧ u.coh.linInside 0 16 = true) :=
  ⟨runs_of (by decide +kernel), rfl, _, rfl, by decide +kernel, by decide +kernel, by decide +kernel, by decide +kernel⟩
theorem test_channel_witness : (∀ op ∈ [0xD9, 0xDA, 0xDB], issuesF chanState op (fl 264 265 0 0 0)) ∧
    (let u := chanState.readsF 0xDA (fl 264 265 0 0 0)
     u.chanArg (fl 264 265 0 0 0) = 0 ∧ ∃ y d c, u.channel 0 = some (y, d, c) ∧ c.rel ≠ c.recv ∧ u.f3 = y.cons) :=
  ⟨fun op h => runs_of (by revert op; decide +kernel), by decide +kernel, _, _, _, rfl, by decide +kernel, by decide +kernel⟩

/-- Whether an engine takes an operation. -/
def takesB (s : State) (eng : Nat) (locks : List Lock) : Bool :=
  decide (s.engCount eng < engLimit eng) && !((s.g.prom.getD s.g.nextTag .free).open_) && s.lockRoom locks
theorem takes_of {s : State} {eng : Nat} {locks : List Lock} (h : takesB s eng locks = true) : s.takes eng locks := by
  unfold takesB at h
  simp only [Bool.and_eq_true, decide_eq_true_eq, Bool.not_eq_true'] at h
  exact ⟨h.1.1, h.1.2, h.2⟩

/-- gld, gst and gatom of a byte: address pair v4, offset s10. -/
def singleB (x : SingleCase) (s : State) (f : Fields) : Bool :=
  let u := s.readsF x.op f; let g := s.stepped f; let ks := u.performing f.h; let off := u.sideOff g
  let v := if x.src then u.settle (u.sideSpans ks off (x.len g)) else u
  runs s x.op f && u.acqHold.isNone && okB (u.sideCheck ks off (x.size g) (x.len g)) &&
  ks.all (fun k => u.globalAddr g k % x.size g = 0) && takesB v 3 (v.sideLock ks off (x.len g) (x.dst g))
theorem test_singles_ready : singleCases.all (fun x => singleB x (withS 10 64 four) (fl 264 4 266 0 0)) = true := by decide +kernel
theorem test_watch_witness : issuesF four 0xD3 (fl 264 265 266 267 0) ∧ (let u := four.readsF 0xD3 (fl 264 265 266 267 0)
    let x := u.linAcc 0 (u.sreg u.cyc 11).toNat 8
    u.unheld ∧ x.mis = false ∧ x.out = false ∧ u.coh.inside x.off 8 = true ∧ (u.sreg u.cyc 9).toNat % 8 = 0 ∧
    u.takes 3 (u.padLock true (u.sreg u.cyc 11).toNat 8)) :=
  ⟨runs_of (by decide +kernel), rfl, by decide +kernel, by decide +kernel, by decide +kernel, by decide +kernel, takes_of (by decide +kernel)⟩

/-- The same words with their next tag in use. -/
def noTag : State := withS 10 64 { four with g := { four.g with prom := four.g.prom.map fun e => { e with st := .inFlight } } }
theorem test_no_room_witness : (∀ x ∈ singleCases, let u := noTag.readsF x.op (fl 264 4 266 0 0); let f := fl 264 4 266 0 0
      runs noTag x.op f = true ∧ okB (u.sideCheck (u.performing f.h) (u.sideOff f) (x.size f) (x.len f)) = true ∧
      (u.g.prom.getD u.g.nextTag .free).open_ = true) ∧ runs noTag 0xD3 (fl 264 265 266 267 0) = true := by decide +kernel

/-- A record of a table of 8 words of n32 at linear address 0 (R264). -/
def recBytes : List Byte := leBytes 8 0 ++ leBytes 4 8 ++ leBytes 4 1 ++ leBytes 10 0 ++ leBytes 1 2 ++ leBytes 5 0
def recState : State := { four with spad := [(0, cellsOf 0 recBytes)] }
def indexB (op : Nat) (s : State) (f : Fields) : Bool :=
  let u := s.readsF op f; let g := s.stepped f; let w := u.settleRec 0; let ks := w.performing f.h
  let v := if op = 0xD6 then w.settle (w.sideSpans ks (w.sideOff g) 4) else w
  runs s op f && u.acqHold.isNone && (u.sreg u.cyc (g.c.toNat - 256)).toNat == 0 &&
  (match w.readRecord 0 3 with | .ok bs => bs == recBytes | .error _ => false) &&
  !(w.recPoison 0) && (Tens.ofBytes recBytes).valid && bits (w.auxWord g).toNat 54 9 == 0 && okB (w.auxCheck (w.auxWord g)) &&
  okB (w.sideCheck ks (w.sideOff g) 4 4) && takesB v 2 (indexLocks op w v g 4)
theorem test_index_ready : indexB 0xD5 (withS 10 64 recState) (fl 264 4 266 267 0) = true ∧
    indexB 0xD6 (withS 10 64 recState) (fl 264 4 266 267 0) = true ∧ indexB 0xD7 recState (fl 264 4 0 267 0) = true :=
  ⟨by decide +kernel, by decide +kernel, by decide +kernel⟩

/-- `cpy.ss` of 16 bytes from 4,096 to 0 (form 4). -/
def cpyState : State := withS 9 0 (withS 10 4096 (withS 11 16 four))
theorem test_cpy_ready : runs cpyState 0xD4 (fl 264 265 266 267 0x20) = true ∧
    (let u := cpyState.readsF 0xD4 (fl 264 265 266 267 0x20)
     u.unheld ∧ cpyForm (fl 264 265 266 267 0x20) = 4 ∧ (match cpyPlan u u (fl 264 265 266 267 0x20) with
      | .ok p => takesB u 1 (p.locks ++ u.auxLock (u.auxWord (fl 264 265 266 267 0x20)))
      | .error _ => false) = true) := ⟨by decide +kernel, rfl, rfl, by decide +kernel⟩
theorem test_launch_witness : issuesF four 0x13 (fl 264 4 0 0 0) ∧ (let u := four.readsF 0x13 (fl 264 4 0 0 0)
    (u.part u.myPart).childq.length + (u.performing (under 0)).length ≤ 4096 ∧ u.takes 6 [] ∧ u.myPart < u.parts.length) :=
  ⟨runs_of (by decide +kernel), by decide +kernel, takes_of (by decide +kernel), by decide +kernel⟩

/-- An operation of engine 3 in flight under tag 0 with time 5, and its promise in s9. -/
def flight (o : Op → Op) (s : State) : State :=
  { s with ops := [o { s.opBase 0xD0 3 (fl 264 4 266 0 0) with time := 5, waited := true }]
           g := { s.g with prom := s.g.prom.set 0 { PEntry.free with st := .inFlight, eng := 3, time := 5, cur := 5 } } }
def promised : State := withS 9 (BitVec.ofNat 64 (promiseWord 3 0 5)) (flight id four)
theorem test_ecncl_witness : issuesF promised 0xDD (fl 264 265 0 0 0) ∧
    (let u := promised.readsF 0xDD (fl 264 265 0 0 0); let w := u.sreg u.cyc 9; let e := u.g.entryOf w
     e.open_ = true ∧ e.matches_ w = true ∧ (u.opOfTag e (bits w.toNat 48 8)).map (·.eng) = some 3) ∧
    issuesF four 0xDD (fl 264 265 0 0 0) ∧ ((four.readsF 0xDD (fl 264 265 0 0 0)).g.entryOf 0).open_ = false :=
  ⟨runs_of (by decide +kernel), by decide +kernel, runs_of (by decide +kernel), by decide +kernel⟩

/-! ## Hypotheses: matrix words -/

/-- What a matrix word asks, but its own conditions. -/
def matB (x : MatrixCase) (s : State) (f : Fields) (noop : Bool) : Bool :=
  let u := s.readsF x.op f x.acting; let g := s.stepped f
  runs s x.op f x.acting && u.acqHold.isNone && u.myPair.holder == some u.g.cohort && okB (u.matAddrs (x.addrs u g)) &&
  okB (u.matBusy (x.spans u g) (x.blocks u g) (x.reads u g)) && x.noop u g == noop &&
  if noop then !((u.g.prom.getD u.g.nextTag .free).open_) else takesB (x.after u g) 5 (x.locks u g)
/-- The state that such a word reads. -/
def seen (x : MatrixCase) (s : State) (f : Fields) : State := s.readsF x.op f x.acting
/-- A word in s10 under an A address of 0. -/
def onWord (w : W64) : State := withS 10 w (withS 11 (2 ^ 20) four)
/-- B blocks 0 and 1 tagged sparse. -/
def sparseTags (s : State) : State :=
  s.setPair 0 { s.pair 0 with tags := [[BTag.sparse 0, .sparse 0], []] }

theorem test_matrix_ready :
    matB (mmaCase 0xE0 .mma false) (onWord 0x901) (fl 264 265 266 0 0) false = true ∧
    matB (mmaCase 0xE1 .mmasp true) (sparseTags (onWord 0x1101)) (fl 264 265 266 267 0) false = true ∧
    matB scoutCase (onWord 0x20101) (fl 264 265 266 267 128) false = true ∧
    matB hznCase (onWord 0) (fl 264 265 266 0 0) false = true ∧ matB drainCase (onWord 0) (fl 264 265 266 267 1) false = true ∧
    matB azeroCase four (fl 264 367 0 0 0) false = true ∧ matB qntCase (onWord (dw 5 0 true 1024)) (fl 264 265 266 0 576) false = true ∧
    matB trqCase (onWord 0x5000) (fl 264 265 266 0 0) false = true ∧ matB bputCase (onWord 0x80) (fl 264 265 266 0 0) false = true ∧
    matB (selCase 0xEA .mrd true) (onWord 0x80) (fl 264 265 266 0 0) false = true ∧
    matB (selCase 0xEB .mwr false) (onWord 0x80) (fl 264 265 266 0 0) false = true := by decide +kernel
theorem test_matrix_noop :
    matB (mmaCase 0xE0 .mma false) (onWord 0) (fl 264 265 266 0 0) true = true ∧
    matB (mmaCase 0xE1 .mmasp true) (onWord 0) (fl 264 265 266 267 0) true = true ∧
    matB scoutCase (onWord 0x20000) (fl 264 265 266 267 128) true = true ∧ matB azeroCase four (fl 264 352 0 0 0) true = true ∧
    matB bputCase (onWord 0) (fl 264 265 266 0 0) true = true ∧ matB (selCase 0xEA .mrd true) (onWord 0) (fl 264 265 266 0 0) true = true ∧
    matB (selCase 0xEB .mwr false) (onWord 0) (fl 264 265 266 0 0) true = true := by decide +kernel
/-- Their own conditions, in the same states. -/
theorem test_mma_asks : let x := mmaCase 0xE0 .mma false
    x.asks (seen x (onWord 0x901) (fl 264 265 266 0 0)) (fl 264 265 266 0 0) ∧
    x.asks (seen x (onWord 0) (fl 264 265 266 0 0)) (fl 264 265 266 0 0) := by
  unfold mmaCase; dsimp only; decide +kernel
theorem test_mmasp_asks : let x := mmaCase 0xE1 .mmasp true
    x.asks (seen x (sparseTags (onWord 0x1101)) (fl 264 265 266 267 0)) (fl 264 265 266 267 0) := by
  unfold mmaCase; dsimp only; decide +kernel
theorem test_scout_asks : scoutCase.asks (seen scoutCase (onWord 0x20101) (fl 264 265 266 267 128)) (fl 264 265 266 267 128) := by
  unfold scoutCase; dsimp only; decide +kernel
theorem test_matrix_asks : hznCase.asks (seen hznCase (onWord 0) (fl 264 265 266 0 0)) (fl 264 265 266 0 0) ∧
    azeroCase.asks (seen azeroCase four (fl 264 352 0 0 0)) (fl 264 352 0 0 0) ∧
    trqCase.asks (seen trqCase (onWord 0x5000) (fl 264 265 266 0 0)) (fl 264 265 266 0 0) ∧
    bputCase.asks (seen bputCase (onWord 0x80) (fl 264 265 266 0 0)) (fl 264 265 266 0 0) ∧
    (let x := selCase 0xEA .mrd true; x.asks (seen x (onWord 0x80) (fl 264 265 266 0 0)) (fl 264 265 266 0 0)) ∧
    (let x := selCase 0xEB .mwr false; x.asks (seen x (onWord 0x80) (fl 264 265 266 0 0)) (fl 264 265 266 0 0)) :=
  ⟨show _ = true by decide +kernel, trivial, ⟨by decide +kernel, by decide +kernel, .inl (by decide +kernel)⟩, show _ = true by decide +kernel,
   show _ = true by decide +kernel, show _ = true by decide +kernel⟩
theorem test_drain_asks : drainCase.asks (seen drainCase (onWord 0) (fl 264 265 266 267 1)) (fl 264 265 266 267 1) :=
  ⟨by decide +kernel, by decide +kernel⟩
theorem test_qnt_asks : qntCase.asks (seen qntCase (onWord (dw 5 0 true 1024)) (fl 264 265 266 0 576)) (fl 264 265 266 0 576) :=
  ⟨by decide +kernel, by decide +kernel, by decide +kernel, fun _ => by decide +kernel⟩
theorem test_mop_witness : issuesF four 0xE9 (fl 264 1 0 0 0) ∧ (let u := four.readsF 0xE9 (fl 264 1 0 0 0)
    u.unheld ∧ u.myPair.holder = some u.g.cohort ∧ u.tagFree) :=
  ⟨runs_of (by decide +kernel), rfl, by decide +kernel, show _ = false by decide +kernel⟩

/-! ## Hypotheses: traps and slots -/

/-- The hypotheses of GoingOn: a slot number, normal mode with a handler; a slot that repeats and one at its last repetition. -/
theorem test_going_on_witness : four.g.cur ≤ 1 ∧ four.g.mode = false ∧ four.g.kn.handler = some 64 ∧
    (Rep.mk 3 1 0 1).rep + 1 < (Rep.mk 3 1 0 1).nrep ∧ four.g.here.rep.nrep ≤ four.g.here.rep.rep + 1 := by decide

theorem test_trap_witness : four.land.g.mode = false ∧ four.land.g.kn.handler = some 64 ∧ four.land.spadOk ∧
    four.land.coh.cb ≤ four.land.coh.pb + four.land.tframe / 4096 * 16 :=
  ⟨by decide +kernel, by decide +kernel, (fun _ h => nomatch h), by decide +kernel⟩
/-- A kernel without a handler, and a cohort that has faulted before. -/
def noHandler : State := { four with g := { four.g with kn := { four.g.kn with handler := none } } }
def faulted : State :=
  { four with cohorts := four.cohorts.map fun c => { c with fault := some { cause := 1, gang := 0, pc := 8, word := 0 } } }
theorem test_cohort_fault_witness : (handler four).land.g.mode = true ∧ noHandler.land.g.kn.handler = none ∧
    four.land.coh ∈ four.land.cohorts ∧ four.land.coh.id = four.land.g.cohort ∧ four.land.coh.st = .resident ∧
    four.land.coh.fault = none ∧ faulted.land.coh ∈ faulted.land.cohorts ∧ faulted.land.coh.fault.isSome = true := by decide +kernel

/-- Slots of the gang set. -/
def slots (f g : Slot → Slot) (s : State) : State := { s with g := { s.g with s0 := f s.g.s0, s1 := g s.g.s1 } }
def live (pc mask : Nat) : Slot := { Slot.free with live := true, pc := pc, mask := mask }
def parkedAt (pc mask cyc : Nat) : Slot := { live pc mask with parked := true, parkCyc := cyc, join := some pc }
/-- A stack entry of lane 2 at PC 24 without a join (R166). -/
def stacked (s : State) : State :=
  ({ s with g := { s.g with stackd := 1 } } : State).writeEntry 0 24 none [2] |> fun t => { t with g := { t.g with stackd := 1 } }

theorem test_park_witness : (four |> slots (fun x => { x with join := some 0 }) id).land.g.parks 0 0 = true ∧
    (let g := (four |> slots (fun _ => parkedAt 8 15 0) id).land.g
     (g.slot 0).parked = true ∧ (g.slot 1).live = false ∧ g.ownStack = 0) := by decide +kernel
theorem test_exchange_witness :
    (let g := (four |> slots (fun _ => parkedAt 8 3 0) (fun _ => parkedAt 16 12 0)).land.g
     g.s0.parked = true ∧ g.s1.parked = true ∧ g.s0.pc ≠ g.s1.pc ∧ g.ownStack = 0) ∧
    (let s := (four |> slots (fun _ => parkedAt 8 3 0) (fun _ => parkedAt 16 8 1) |> stacked).land
     s.g.s0.parked = true ∧ s.g.s1.parked = true ∧ s.g.s0.pc ≠ s.g.s1.pc ∧ 0 < s.g.ownStack ∧ s.entryMembers 0 = [2]) := by decide +kernel
theorem test_merge_witness : (four |> slots (fun _ => live 8 3) (fun _ => live 8 12)).land.g.merges = true := by decide +kernel
theorem test_pop_witness :
    (let s := (four |> slots (fun _ => live 8 3) id |> stacked).land
     (s.g.slot 1).live = false ∧ 0 < s.g.ownStack ∧ s.g.st ≠ .exited ∧ s.entryMembers 0 = [2]) ∧
    (let s := (four |> slots (fun _ => live 8 7) id |> stacked).land
     0 < s.g.ownStack ∧ s.entryMembers 0 = []) := by decide +kernel

/-- An entry of which a word is poisoned. -/
def poisonedEntry (s : State) : State := { s with spoison := (List.range 256).map fun l => (0, linOf l (s.coh.reloc (s.coh.cb + 256 + 16 * s.g.kn.divd * s.g.f2 + 8))) }
theorem test_entry_poison_witness :
    (let s := (four |> slots (fun _ => live 8 3) id |> stacked |> poisonedEntry).land; s.entryPoison 0 true = true ∧ 0 < s.g.ownStack) ∧
    (four |> slots (fun _ => live 8 3) id |> stacked).land.entryPoison 0 true = false := by decide +kernel
theorem test_trap_blocked_witness : (waiting four).g.mode = false ∧ (waiting four).g.kn.handler = some 64 := by decide +kernel

/-- A read of a later pass that is made now. -/
def laterRead : Load := { at_ := 1, slot := 0, num := 1, tgt := .v 1 3, core := 0, addr := 64, len := 4, ty := .n32 }
def loading : State :=
  { four with g := { four.g with loads := [laterRead], pend := [{ due := 5, slot := 0, tgt := .v 1 3, val := 0, rmw := 1 }] } }
theorem test_later_load_witness : laterRead.num ≠ 0 ∧ laterRead.tgt = .v 1 3 ∧
    (∀ y ∈ loading.g.fx, y.slot ≠ laterRead.slot ∨ y.core ≠ laterRead.core) ∧
    ∃ p ∈ loading.g.pend, p.rmw = laterRead.num ∧ p.tgt = .v 1 3 := by decide +kernel

/-! ## Hypotheses: blocked slots -/

/-- Slot 0 blocked as given, at 1,000 ns. -/
def blockedIn (b : Block) (s : State) : State := { (slots (fun x => { x with block := b }) id s) with now := 1000 }
/-- A condition that a word of kind 0 asks: the promise of `promised`, whose operation has completed with OK. -/
def ended (s : State) : State := { s with ops := [], g := { s.g with prom := s.g.prom.map fun e => if e.st = .inFlight then
  { e with st := .completed } else e } }
def prom0 : W64 := BitVec.ofNat 64 (promiseWord 3 0 5)

theorem test_fence_release_witness : let s := (blockedIn (.fence true 0 9) four).atSlot 0
    s.g.here.block = .fence true 0 9 ∧ s.fenceClear true = true := by decide +kernel
theorem test_wait_ends_witness :
    (let s := (blockedIn (.wait 7 [prom0] true none 2000 1) (ended promised)).atSlot 0
     s.waitNow [prom0] true none 2000 1 = .go [0] ∧ s.g.waitFault [prom0] [0] = none) ∧
    ((blockedIn (.wait 7 [prom0] true none 2000 1) promised).atSlot 0).waitNow [prom0] true none 2000 1 = .missed 0 := by decide +kernel
/-- A promise that is never missed, with a limit that has passed and with none. -/
def never : W64 := BitVec.ofNat 64 (promiseWord 3 0 (neverTime 0))
def neverEntry : PEntry := { PEntry.free with st := .inFlight, eng := 3, time := neverTime 0, cur := neverTime 0 }
def waits : State := withS 9 never { promised with g := { promised.g with prom := promised.g.prom.set 0 neverEntry } }
theorem test_wait_limit_witness :
    ((blockedIn (.wait 7 [never] true (some 1000) 2000 1) waits).atSlot 0).waitNow [never] true (some 1000) 2000 1 = .timeout [] ∧
    ((blockedIn (.wait 7 [never] true none 1000 1) waits).atSlot 0).hangOf = some (0, never) := by decide +kernel
theorem test_hold_witness : ∀ why ∈ [HoldFor.acq, .room [0, 1], .tag], let s := (blockedIn (.hold 3 2000 why false) four).atSlot 0
    s.g.here.block = .hold 3 2000 why false ∧ s.holdOver 3 why = true := by decide +kernel

theorem test_channel_block_witness :
    (let s := (blockedIn (.chsend (fl 264 265 266 267 0) 0 0 16 2000 7) chanState).atSlot 0
     s.canClaim (fl 264 265 266 267 0) 0 0 16 = true ∧ (s.channel 0).isSome = true) ∧
    (let s := (blockedIn (.chrel 8 0 2000) chanState).atSlot 0
     s.fenceClear true = true ∧ (s.channel 0).any (fun x => x.2.2.rel ≠ x.2.2.recv) = true) ∧
    (let s := (blockedIn (.chrecv 8 0 2000 0) { chanState with cohorts := chanState.cohorts.map fun c => { c with chans := [⟨1, 1, 0, 0⟩] } }).atSlot 0
     (s.channel 0).any (fun x => x.2.2.ready) = true ∧ s.recvFirst 0 0 = true) := by decide +kernel

/-- Message 1 of channel 0, whose bytes have come, after one that has landed. -/
def message : Op := { chanState.opBase 0xD8 4 (fl 264 265 266 267 0) with
  items := [{ k := 0, idx := 1, off := 1, addr := 0, data := [], st := .done }] }
theorem test_landing_witness : let s := { chanState with ops := [message] }
    s.op? 0 = some message ∧ message.eng = 4 ∧ (message.items.all fun i => (s.messageSlot message i).isSome) = true ∧
    (s.coh.chans.getD 0 .zero).landed = 1 := by decide +kernel

/-! ## Hypotheses: operations -/

/-- One item to do, and operations of engines 1 to 4. -/
def oneItem : Item := { k := 0, idx := 0, off := 0, addr := 0, data := [0], st := .todo }
def opOf (eng opc : Nat) : Op := { four.opBase opc eng (fl 264 265 266 267 0) with items := [oneItem], waited := true }
def withOp (o : Op) (s : State) : State := { s with ops := [o] }

theorem test_lock_wait_witness : let o := { opOf 1 0xD4 with waited := false }
    (withOp o four).op? 0 = some o ∧ (withOp o four).lockWaits 0 = false ∧
    (let o := { opOf 3 0xD2 with waited := false }
     (withOp o four).op? 0 = some o ∧ (withOp o four).lockWaits 0 = false ∧ (withOp o four).fxBefore o = false) := by decide +kernel
/-- A failed item of `gth` and `probe`, and one that cannot be reached: nothing is translated after reset. -/
def failedItem : Item := { oneItem with st := .failed 3 0 }
theorem test_probe_pass_witness : ∀ opc ∈ [0xD5, 0xD7], let o := { opOf 2 opc with items := [failedItem] }
    (withOp o four).op? 0 = some o ∧ (withOp o four).opGo o = true ∧ ((withOp o four).cohort 1).st = .resident ∧
    (∀ i ∈ o.items, i.st ≠ .todo) ∧ o.opc = opc := by decide +kernel
theorem test_probe_fails_witness : let o := opOf 2 0xD5
    (withOp o four).opGo o = true ∧ ∃ i ∈ o.items, i.st = .todo ∧ ¬∃ p, (withOp o four).reach o.part o.pasid i.addr o.use = .ok p :=
  ⟨by decide +kernel, oneItem, List.mem_singleton.mpr rfl, rfl, fun h => by
    obtain ⟨_, h⟩ := h
    have e : ((withOp (opOf 2 0xD5) four).reach 0 0 0 (opOf 2 0xD5).use).toOption = none := by decide +kernel
    rw [show (withOp (opOf 2 0xD5) four).reach (opOf 2 0xD5).part (opOf 2 0xD5).pasid oneItem.addr (opOf 2 0xD5).use =
      (withOp (opOf 2 0xD5) four).reach 0 0 0 (opOf 2 0xD5).use from rfl] at h
    rw [h] at e
    exact nomatch e⟩
theorem test_item_witness : (∀ x ∈ [(1, 0xD4), (3, 0xD0), (4, 0xD8)], let o := opOf x.1 x.2
      (withOp o four).op? 0 = some o ∧ (withOp o four).opGo o = true ∧ o.items[0]? = some oneItem) ∧
    (let o := { opOf 2 0xD5 with probed := true }
     (withOp o four).opGo o = true ∧ o.tfault = false ∧ ((withOp o four).cohort 1).st = .resident) := by decide +kernel
/-- All items done: a resident cohort, and a saved one. -/
def doneOp : Op := { opOf 1 0xD4 with items := [{ oneItem with st := .done }] }
def savedFour : State := { four with cohorts := four.cohorts.map fun c => { c with st := .saved } }
theorem test_completion_witness : (withOp doneOp four).opDone doneOp = true ∧ ((withOp doneOp four).cohort 1).st ≠ .saved ∧
    (withOp doneOp savedFour).opDone doneOp = true ∧ ((withOp doneOp savedFour).cohort 1).st = .saved := by decide +kernel
theorem test_entry_completes_witness : let o := { opOf 3 0xD0 with time := 5, late := true }
    (withOp o promised).g.cohort = o.cohort ∧ (withOp o promised).g.f2 = o.f2 ∧ o.tag < (withOp o promised).g.prom.length ∧
    ((withOp o promised).g.prom.getD o.tag .free).open_ = true ∧ ((withOp o promised).g.prom.getD o.tag .free).eng = o.eng ∧
    ((withOp o promised).g.prom.getD o.tag .free).time = o.time := by decide +kernel

/-- A matrix operation at the head of its queue, not started and started. -/
def matOp : Op := { opOf 5 0xE5 with items := [] }
def queued (o : Op) (s : State) : State :=
  ({ s with ops := [o] } : State).setPair 0 { s.pair 0 with matq := [0], cyc := 200 }
theorem test_matrix_queue_witness : (queued matOp four).matHead 0 = some matOp ∧ matOp.started = none ∧ matOp.icyc < 200 ∧
    (let o := { matOp with started := some 100, dur := 100 }
     (queued o four).matHead 0 = some o ∧ 100 + o.dur ≤ ((queued o four).pair 0).cyc) := by decide +kernel

/-- The conditions of the clauses of Leaves at their bounds: 128 rows of a tile in one block, 64 rows from row 64 on, 64 blocks from block 64 on, 256
scores of 128 rows, masks and registers of a gang, and the ranges that `mrd`, `drain`, `qnt` and `trq` write. -/
theorem test_leaves_witness : let p := four.pair 0; let c := four.cohort 1
    (p.acc.all Memory.wf && p.nan.all Memory.wf && p.bbuf.all Memory.wf && p.sct.wf) = true ∧ p.acc.length = 4 ∧ p.nan.length = 4 ∧
    p.bbuf.length = 2 ∧ p.tags.all (fun t => t.length == 128) = true ∧ p.tags.length = 2 ∧
    (let x := MmaWord.ofNat 0x980; x.m = 128 ∧ x.blocks false 0 0 = [0] ∧ 0 ∈ x.tiles 0 0 ∧ x.acc = 0) ∧ (MmaWord.ofNat 0).blocks false 0 0 = [] ∧
    (let x := SelWord.ofNat (64 + 64 * 2 ^ 7); x.row + x.nrow = 128 ∧ c.linInside 0 (x.bytes 0) = true) ∧
    (let x := BputWord.ofNat (64 + 64 * 2 ^ 7); x.first + x.count = 128) ∧
    (let x := ScoutWord.ofNat (128 + 256 * 2 ^ 8 + 2 ^ 17); x.m = 128 ∧ x.st + x.nk = 256) ∧
    c.linInside 0 (4 * blockLen) = true ∧ four.g.m.length = 8 ∧ 318 - 255 < four.g.s.length ∧ four.gang? 1 0 = some four.g ∧
    (queued matOp four).fxBefore matOp = false ∧ matOp.core / 2 = 0 := by decide +kernel

/-- One stored block of an `mmasp`, with its tile, rows and metadata, at the end of the set. -/
theorem test_mmasp_leaves_witness : let x := MmaWord.ofNat 0x1101
    x.blocks true 0 0 = [0] ∧ x.kb = 2 ∧ 0 ∈ x.tiles 0 0 ∧ 0 < x.m ∧ x.m ≤ 128 ∧ metaLen 0 / 128 * 128 = metaLen 0 ∧
    patternOf 0 = (2, 4, 2) ∧ patternOf 2 = (4, 8, 3) := by decide +kernel

/-! ## Hypotheses: gangs -/

/-- A gang blocked for long; one pending and eligible; a full active set of which the gang is the oldest. -/
def pendingFour : State := { four with g := { four.g with st := .pending, eligAt := some 0 } }
def later (n : Nat) : Gang :=
  { four.g with f2 := n + 1, st := if n = 7 then GState.pending else .active, activeAt := 1, eligAt := if n = 7 then some 0 else none }
def fullSet : State :=
  ({ four with others := (List.range 8).map later } : State) |> fun s => s.setPair 0 { s.pair 0 with cyc := 256 }
theorem test_gang_witness : (blockedIn (.wait 7 [never] true none 2000 1) waits).goesPending = true ∧ pendingFour.entersActive = true ∧
    fullSet.rotatesOut = true ∧ (four |> slots (fun _ => Slot.free) id).land.g.ends = true := by decide +kernel

/-! ## Hypotheses: the network, slices, CXL and ports -/

/-- A read packet of one element that has come to pair 0's own router, and a router that holds it at its local port. -/
def packet : Packet :=
  { kind := 1, dnode := 0, ddie := 0, drt := sliceRouter 0, snode := 0, sdie := 0, srt := pairRouter 0, slack := 5, late := false, bg := false
    ndata := 0, op := 0, elems := [{ item := 0, la := 64, act := .read 8, data := [] }], at_ := 0 }
def atRouter (r : Nat) : State :=
  four.setRouter r { Router.init with bufs := [[], [], [], [], [packet]] }
theorem test_router_grant_witness : ((List.range 5).any fun out => ((atRouter (pairRouter 0)).arbiter (pairRouter 0) out).isSome) = true ∧
    ((atRouter (pairRouter 0)).router (pairRouter 0)).on = true ∧ (∀ d p, mergeFront d [p] = [p]) :=
  ⟨by decide +kernel, by decide +kernel, fun _ _ => rfl⟩
def idleRouter : State := { four.setRouter 3 Router.init with now := 128 }
def wakingRouter : State := four.setRouter 3 { Router.init with on := false, wakeAt := some 0 }
theorem test_router_power_witness : (idleRouter.router 3).on = true ∧ (idleRouter.router 3).bufs.all List.isEmpty = true ∧
    (idleRouter.router 3).idle + 256 ≤ idleRouter.halfNs ∧ (wakingRouter.router 3).wakeAt = some 0 ∧ 0 ≤ wakingRouter.halfNs := by
  decide +kernel
theorem test_tick_witness : let s := { four with now := 4 }
    s.now % 4 = 0 ∧ s.half = false ∧ s.tickAt ≠ s.now := by decide +kernel

/-- A slice with one request, waiting and served, and a held watch whose word was left different. -/
def sliceWith (p : Packet) (b : Served) (ws : List Packet) : State := four.setSlice 0 { Slice.init with q := [(p, b)], watches := ws }
/-- The first request that may be served: none shares the bank. -/
theorem servable_witness : ∀ p ∈ [packet, { packet with elems := [{ item := 0, la := 2 ^ 41, act := .read 8, data := [] }] }],
    ((sliceWith p .queued []).slice 0).servable 0 = [0] := by decide +kernel
theorem test_slice_witness : inHbm packet.la = true ∧ inHbm (2 ^ 41) = false ∧ four.replyRoom 0 = true ∧
    (∀ k ∈ [1, 8], let s := sliceWith { packet with kind := k } .ready []
      ((mergeHead s.draws (s.slice 0).q).find? fun y => y.2 = .ready) = some ({ packet with kind := k }, .ready) ∧ s.replyRoom 0 = true) ∧
    64 ≤ ((sliceWith { packet with kind := 8 } .ready (List.replicate 64 packet)).slice 0).watches.length := by decide +kernel
def watcher : Packet := { packet with kind := 8, elems := [{ item := 0, la := 64, act := .watch 0, data := [1] }] }
theorem test_watch_answer_witness : let s := four.setSlice 0 { Slice.init with watches := [watcher] }
    (s.slices.find? fun y => y.2.watches.any fun p => p.op = 0 && p.elems.any PElem.over) =
      some (0, { Slice.init with watches := [watcher] }) ∧ [watcher].find? (fun p => p.op = 0) = some watcher ∧ s.replyRoom 0 = true := by decide +kernel

/-- A CXL link with a queued and a sent request, and a port, up and down, with a packet queued, one held and one come in, 100 µs later. -/
def egress : Egress := { pkt := packet, since := 0, input := 0 }
def port (up : Bool) : Port := { q := [egress], last := 0, up := up, retx := 0, held := [egress], rx := [packet] }
def link (q : List Egress) (sent : List (Packet × Nat)) : CxlLink := { q := q, sent := sent, failed := 0, last := 8, rx := [] }
def links (up : Bool) (q : List Egress) : State :=
  { four with now := 100000, cxl := [link q [(packet, 0)]], ports := [port up] }
/-- A state whose bridge router 0 has no free buffer at its local port, so that nothing comes in there. -/
def fullBridge : State := (links true [egress]).setRouter packet.bridgeIn { Router.init with bufs := [[], [], [], [], List.replicate 4 packet] }
theorem test_link_witness : (links true []).cxl[0]? = some (link [] [(packet, 0)]) ∧ (links true []).hubReady 0 [] = none ∧
    (links true []).hubReady 0 (link [] [(packet, 0)]).rx = none ∧ (link [egress] []).grant = some egress ∧ egress.input < 13 ∧ egress.pkt.slack ≤ 4095 ∧
    ([(packet, 0)].find? fun y => y.2 + 100000 ≤ (links true []).now) = some (packet, 0) := by decide +kernel
/-- A line that has come to link 0, alone at its bridge. -/
def lineCame : State := { links true [] with ports := [], cxl := [{ link [] [] with rx := [packet] }] }
theorem test_line_witness : lineCame.hubReady 0 [packet] = some packet ∧ lineCame.cxl.length ≤ 4 ∧ lineCame.ports.length ≤ 16 := by decide +kernel
theorem test_port_witness : (links true []).ports[0]? = some (port true) ∧ (links false []).ports[0]? = some (port false) ∧
    (port true).grant = some egress ∧ fullBridge.rxReady 0 (port true) = none ∧ (port true).rx = [packet] ∧
    (links false []).rxReady 0 (port false) = some packet ∧ ((port false).q.find? fun y => y.since + 100000 ≤ (links false []).now) = some egress ∧
    four.portBusy 0 0 = false ∧ (({ four with mg := { four.mg with porten := 1 } } : State).portFrom 3) = some 0 ∧
    (({ four with ports := [port true], mg := { four.mg with porten := 2 } } : State).portBusy 0 (homePort 0 packet.la)) = true := by decide +kernel

/-! ## Hypotheses: queues and packets -/

/-- Tables that map the first GiB of intermediate addresses to itself, readable and writable (R380, R381). -/
def tables : Memory := cellsOf 0x10000 (leBytes 8 0x11001) ++ cellsOf 0x11000 (leBytes 8 0x12001) ++ cellsOf 0x12000 (leBytes 8 0xF)
def host0 : Part := { Part.init with en := true, dies := 1, s2root := 0x10000, heap := 0x10000, natok := true, shadow := 0, shlen := 2 ^ 30 }
/-- Management state of a module whose image runs. -/
def imageUp : Mgmt := { State.reset.mg with status := 2 }
def host : State := { State.reset with mem := tables, mg := imageUp, parts := State.reset.parts.set 0 host0 }
/-- A packet of a type with PASID 0 and its body, and the host with such packets in queue 0. -/
def pk (type body0 body1 : Nat) (started work : Bool) : Pkt :=
  { seq := 0, words := [BitVec.ofNat 64 type, 0, 0, 0, 0, 0, BitVec.ofNat 64 body0, BitVec.ofNat 64 body1], started := started, work := work
    done := work }
def inQueue (ps : List Pkt) (s : State) : State := s.setQueue 0 0 { Queue.init with pkts := ps }
/-- The 64 bytes of a signal packet. -/
def signalBytes : List Byte := leBytes 8 3 ++ leBytes 40 0 ++ leBytes 8 0x10000 ++ leBytes 8 1
theorem test_submission_witness : host.mg.status = 2 ∧ (host.part 0).en = true ∧ (host.queue 0 0).pkts.length < 256 ∧ signalBytes.length = 64 ∧
    (let p : Pkt := { seq := 0, words := packetWords signalBytes, started := false, work := false, done := false }
     p.bad = none ∧ p.pasid ∉ (host.part 0).revoked ∧ p.pasid = 0) ∧
    (let p : Pkt := { seq := 0, words := packetWords (leBytes 64 0), started := false, work := false, done := false }
     p.bad = some 0) ∧ 256 ≤ ((inQueue (List.replicate 256 (pk 3 0x10000 1 false false)) host).queue 0 0).pkts.length := by decide +kernel
theorem test_packet_start_witness : let s := inQueue [pk 3 0x10000 1 false false] host
    (s.part 0).halted = false ∧ (s.part 0).halting = false ∧
    (s.queue 0 0).pkts.find? (fun p => !p.started) = some (pk 3 0x10000 1 false false) ∧ s.prereqs 0 (pk 3 0x10000 1 false false) = true := by
  decide +kernel
theorem test_packet_complete_witness : let s := inQueue [pk 3 0x10000 1 true true] host
    (s.queue 0 0).pkts.find? (s.pktDone 0 0) = some (pk 3 0x10000 1 true true) ∧ 0 < s.parts.length ∧ 0 < (s.part 0).queues.length := by
  decide +kernel

/-- A kernel of a portable object, its launch record at 0x20000, and an object to install at 0x30000. -/
def entryBytes : List Byte := leBytes 4 0 ++ leBytes 4 0xFFFFFFFF ++ leBytes 4 0 ++ leBytes 4 8 ++ leBytes 16 0 ++
  (leBytes 24 0 ++ leBytes 2 8 ++ leBytes 2 256 ++ leBytes 1 1 ++ leBytes 1 1 ++ leBytes 2 0 ++ leBytes 8 1000 ++ leBytes 88 0) ++ leBytes 416 0
def objBytes : List Byte := leBytes 4 0x4B434F42 ++ leBytes 4 1 ++ leBytes 8 7 ++ leBytes 4 1 ++ leBytes 4 1 ++ leBytes 4 256 ++ leBytes 4 576 ++
  leBytes 4 832 ++ leBytes 4 8 ++ leBytes 4 848 ++ leBytes 12 0 ++ leBytes 4 1 ++ leBytes 196 0 ++ entryBytes ++ leBytes 8 (0x0C * 2 ^ 56) ++
  leBytes 8 0
def record : List Byte := leBytes 8 7 ++ leBytes 16 0 ++ leBytes 2 8 ++ leBytes 2 256 ++ leBytes 1 1 ++ leBytes 1 1 ++ leBytes 2 0 ++
  leBytes 8 1000 ++ leBytes 216 0
def hostWith : State :=
  { host with mem := tables ++ cellsOf 0x20000 record, parts := host.parts.set 0 { host0 with objs := [.ofBytes State.reset.mg 5 objBytes] } }
theorem test_launch_packet_witness :
    (inQueue [pk 1 0x20000 0 true false] hostWith).atWork 0 0 1 = some (pk 1 0x20000 0 true false) ∧ (hostWith.part 0).stamps = [] ∧
    (match (inQueue [pk 1 0x20000 0 true false] hostWith).readLaunch 0 0 0x20000 false (some 0) 0 0 none with
     | .ok _ => true | .error _ => false) = true := by decide +kernel
/-- No object has the handle; nothing is mapped at the address. -/
theorem test_launch_refused_witness :
    (match host.readLaunch 0 0 0x20000 false (some 0) 0 0 none with | .error e => e == .refused 6 0 | .ok _ => false) = true ∧
    (match host.readLaunch 0 0 (2 ^ 40) false (some 0) 0 0 none with | .error e => e == .unread 1 | .ok _ => false) = true := by
  decide +kernel
/-- Two records of a table of 8 words at 0x20000. -/
def hostRecs : State := { host with mem := tables ++ cellsOf 0x20000 (recBytes ++ recBytes) }
theorem test_copy_packet_witness : (inQueue [pk 2 0x20000 0 true false] hostRecs).atWork 0 0 2 = some (pk 2 0x20000 0 true false) ∧
    (match (inQueue [pk 2 0x20000 0 true false] hostRecs).readVirt 0 0 0x20000 64 with
     | .ok bs => bs == recBytes ++ recBytes | .error _ => false) = true ∧ (Tens.ofBytes recBytes).valid = true := by decide +kernel
theorem test_signal_packet_witness : (inQueue [pk 3 0x10000 1 true false] host).atWork 0 0 3 = some (pk 3 0x10000 1 true false) := by
  decide +kernel
theorem test_install_checks : host.installRefusal 0 objBytes = none ∧ host.installRefusal 0 (objBytes.set 4 2) = some (8, 4) := by
  decide +kernel
/-- An install of 16 bytes, and a removal: both are read, and the first is refused. -/
theorem test_install_packet_witness : let s := inQueue [pk 4 0x20000 16 true false] hostWith
    s.atWork 0 0 4 = some (pk 4 0x20000 16 true false) ∧ (pk 4 0x20000 16 true false).body1 % 2 ^ 32 ≠ 0 ∧
    (match s.readVirt 0 0 0x20000 16 with | .ok o => s.installRefusal 0 o == some (8, 0) | .error _ => false) = true ∧
    (pk 4 7 0 true false).body1 % 2 ^ 32 = 0 := by decide +kernel
theorem test_query_packet_witness : ∀ k ∈ [1, 2, 3, 4],
    (inQueue [pk 5 (0x20000 + k) 0 true false] host).atWork 0 0 5 = some (pk 5 (0x20000 + k) 0 true false) ∧
    (pk 5 (0x20000 + k) 0 true false).body0 % 256 = k := by decide +kernel
theorem test_nonce_witness : (match host.readVirt 0 0 0x20000 32 with | .ok x => x == List.replicate 32 0 | .error _ => false) = true := by
  decide +kernel

/-! ## Hypotheses: the dispatcher -/

/-- The launch of `four`, running in an enabled partition, and with its clusters still to place, all placed, or its cohort ended. -/
def running : State := { four with parts := host.parts, mem := tables, mg := imageUp }
def oneLaunch (f : Launch → Launch) (s : State) : State := { s with launches := s.launches.map f }
def overState : State := { running with cohorts := [], g := .idle }
def reapState : State := { running with g := { four.g with st := .exited } }
def placeState : State := { running with cohorts := [], g := .idle, pairs := [] } |> oneLaunch fun l => { l with nextCluster := 0 }
theorem test_dispatch_witness :
    (match overState.dispatchAct 0 with | .over _ => true | _ => false) = true ∧
    (match reapState.dispatchAct 0 with | .reap _ => true | _ => false) = true ∧
    (match placeState.dispatchAct 0 with | .place _ _ _ => true | _ => false) = true := by decide +kernel
theorem test_halted_witness : let s := running.setPart 0 { host0 with halted := true }
    (s.part 0).halted = true ∧ s.dispatchAct 0 = .idle := by decide +kernel
/-- A child whose record is at 0x20000 waits. -/
def child : Child := { cohort := 9, f2 := 0, tag := 0, op := 9, item := 0, pasid := 0, prio := 0, addr := 0x20000 }
def hostChild (s : State) : State := s.setPart 0 { s.part 0 with childq := [child] }
theorem test_child_witness : (hostChild hostWith).childReady 0 = true ∧ ((hostChild hostWith).part 0).childq = [child] ∧
    (match (hostChild hostWith).readLaunch 0 0 0x20000 false none 0 0 (some (9, 0, 9)) with | .ok _ => true | .error _ => false) = true := by
  decide +kernel

/-! ## Hypotheses: saving and restoring -/

/-- The cohort of `running`, with fields set. -/
def cohortIs (f : Cohort → Cohort) (s : State) : State := { s with cohorts := s.cohorts.map f }
def atRest (s : State) : State := { s with g := { s.g with st := .saved } }
theorem test_save_witness :
    (let s := cohortIs (fun c => { c with saveReq := true }) running; s.stops (s.cohort 1) = true ∧ s.cohort 1 ∈ s.cohorts) ∧
    (let s := atRest (cohortIs (fun c => { c with st := .stopped }) running); s.quiesces (s.cohort 1) = true) ∧
    (let s := atRest (cohortIs (fun c => { c with st := .quiesced, toFault := true }) running)
     s.quiesces (s.cohort 1) = false ∧ s.faultsNow (s.cohort 1) = true) ∧
    (let s := atRest (cohortIs (fun c => { c with st := .quiesced, saveReq := true }) running); s.saves (s.cohort 1) = true) := by
  decide +kernel
/-- A cohort at rest that yields for a saved one of its launch. -/
def yieldState : State :=
  let s := atRest (cohortIs (fun c => { c with st := .quiesced, saveReq := true, yieldFor := some 9 }) running)
  { s with cohorts := s.cohorts ++ [{ s.cohort 1 with id := 9, c := 7, st := .saved, yieldFor := none, saveReq := false }] }
theorem test_yielded_witness : let s := yieldState; let c := s.cohort 1
    let v := (s.clusterOf c).foldl (fun s d => if d.st = .saved then s else s.saveCohort (s.cohort d.id)) s
    let w := (s.clusterOf c).foldl (fun s d => s.setCohort { s.cohort d.id with yieldFor := none }) v
    s.saves c = true ∧ (w.launch? c.launch).any (fun l => (v.yieldedTo (s.clusterOf c)).any fun d =>
      w.isUnit d && !(w.part l.part).halted && !(w.part l.part).halting && (w.fitUnit l.part l.kern (w.clusterOf d)).isSome) = true := by
  decide +kernel
def savedState : State :=
  { (cohortIs (fun c => { c with st := .saved }) running) with pairs := [], g := .idle }
theorem test_restore_witness : (savedState.launch? (savedState.cohort 1).launch).isSome = true ∧
    (∀ d ∈ savedState.clusterOf (savedState.cohort 1), d.st = .saved ∧ d.toFault = false) ∧
    (savedState.fitUnit 0 four.g.kn (savedState.clusterOf (savedState.cohort 1))).isSome = true := by decide +kernel

/-! ## Hypotheses: operations on memory that is mapped -/

/-- A record of elements of a format at a global address, and `cpy` from address b to a: within scratchpad, from record to record, and into the last
block of the B buffer. -/
def recOf (base extx exty fmt : Nat) : List Byte :=
  leBytes 8 base ++ leBytes 4 extx ++ leBytes 4 exty ++ leBytes 4 4 ++ leBytes 6 0 ++ leBytes 1 fmt ++ leBytes 5 0
def copyOf (form : Nat) (a b c : W64) (r1 r2 : List Byte) : Op :=
  { opOf 1 0xD4 with word := BitVec.ofNat 64 (0xD4 * 2 ^ 56 + 8 * form), aval := a, bval := b, cval := c, rec1 := r1, rec2 := r2 }
def ssOp : Op := copyOf 4 0 4096 16 [] []
def ggOp : Op := copyOf 5 0 0 0 (recOf 0x20000 1 1 7) (recOf 0x30000 1 1 7)
def gbOp : Op := copyOf 3 255 0 0 (recOf 0x20000 1 32 12) []
/-- The one item of such an operation may be performed: nothing fails, and every unit has its bytes; whether it has reads and writes to send. -/
def copyB (s : State) (o : Op) (i : Item) (reads writes : Bool) : Bool :=
  let us := s.itemUnits o 0
  s.opGo o && s.copyRuns o 0 && !(s.itemWaits o 0 i) && us.length == 1 && (s.copyFault o i us).isNone &&
  (s.copyElems o 0 us false).isEmpty != reads && (s.copyElems o 0 us true).isEmpty != writes &&
  us.all fun u => match u.val s with | .ok bs => bs.length == u.len | .error _ => false
/-- Within scratchpad an item takes effect at once; others read first, and one with a global destination has data to send. -/
theorem test_copy_witness : copyB (withOp ssOp running) ssOp oneItem false false = true ∧ copyB (withOp ggOp running) ggOp oneItem true true = true ∧
    copyB (withOp gbOp running) gbOp oneItem true false = true ∧
    ∀ i ∈ [{ oneItem with st := .applied }, { oneItem with st := .applied, wr := true }],
      copyB (withOp { ggOp with items := [i] } running) { ggOp with items := [i] } i true true = true := by decide +kernel
/-- A read of an item that the operation has still to send. -/
def sending : Op := { ggOp with items := [{ oneItem with st := .sent, left := 1 }], out := [packet] }
theorem test_sending_witness : let s := withOp sending running
    s.op? 0 = some sending ∧ s.opGo sending = true ∧ s.copyRuns sending 0 = true ∧ sending.ofHub = false ∧ sending.outOf 0 = some packet ∧
    (s.router (pairRouter 0)).load portLocal < 4 ∧ portLocal < (s.router (pairRouter 0)).bufs.length := by decide +kernel
/-- Two reads in one sector, the last bytes of it. -/
def sectorOp : Op := { opOf 3 0xD0 with items := [{ oneItem with addr := 0x20038, data := [] }, { oneItem with k := 1, addr := 0x20020, data := [] }] }
theorem test_packet_witness : let s := withOp sectorOp running
    s.op? 0 = some sectorOp ∧ s.opGo sectorOp = true ∧ sectorOp.items[0]? = some { oneItem with addr := 0x20038, data := [] } ∧
    (match s.itemPlace sectorOp { oneItem with addr := 0x20038, data := [] } with | .ok p => p == (0, 0x20038) | .error _ => false) = true ∧
    (s.router (pairRouter 0)).load portLocal < 4 ∧ portLocal < (s.router (pairRouter 0)).bufs.length ∧
    (∀ n x, sectorOp.items[n]? = some x → s.itemWaits sectorOp n x = false) := by
  refine ⟨by decide +kernel, by decide +kernel, rfl, by decide +kernel, by decide +kernel, by decide +kernel, ?_⟩
  intro n x h
  match n, h with
  | 0, h => cases h; decide +kernel
  | 1, h => cases h; decide +kernel
/-- Message 1 of channel 0, 16 bytes from address 4,096. -/
def sendOp : Op := { chanState.opBase 0xD8 4 (fl 264 265 266 267 0) with
  waited := true, aval := 0, bval := 4096, cval := 16, items := [{ k := 0, idx := 1, off := 1, addr := 0, data := [], st := .todo }] }
theorem test_message_witness : let s := { chanState with ops := [sendOp] }
    s.op? 0 = some sendOp ∧ s.opGo sendOp = true ∧ (∀ i, sendOp.items[0]? = some i → (s.messageSlot sendOp i).any (fun x =>
      x.1.linInside x.2.2.2 16) = true) ∧ s.cohPoison (s.cohort 1) (sendOp.coreOfAddr 4096) 4096 16 = false := by
  refine ⟨by decide +kernel, by decide +kernel, ?_, by decide +kernel⟩
  intro i h; cases h; decide +kernel

/-- Ended operations: with a fault list of 16 entries at 64, with a byte count for the barrier object at 16, and a load with its byte. -/
def listOp : Op := { doneOp with aux := BitVec.ofNat 64 (64 + 16 * 2 ^ 22) }
def barOp : Op := { doneOp with aux := BitVec.ofNat 64 (2 ^ 63 + 16 * 2 ^ 32), bytes := 16 }
def loadOp : Op := { opOf 3 0xD0 with items := [{ oneItem with st := .done, data := [7] }] }
theorem test_completion_forms :
    (∀ o ∈ [listOp, barOp, loadOp], (withOp o four).op? 0 = some o ∧ (withOp o four).opDone o = true ∧ ((withOp o four).cohort 1).st = .resident) ∧
    auxFlc listOp.aux = 16 ∧ listOp.subtracts = false ∧ (four.cohort 1).linInside 64 (16 * 17) = true ∧
    barOp.subtracts = true ∧ (withOp barOp four).barPoison barOp = false ∧ four.fixedFx = [] ∧ (four.cohort 1).linInside 16 16 = true ∧
    (four.gang? 1 0).isSome = true ∧ auxFlc loadOp.aux = 0 ∧ auxFlc barOp.aux = 0 := by decide +kernel
/-- A `gatom` that returns nothing, and a `watch` whose word has come, with its landing at the last 8 bytes. -/
def redOp : Op := { opOf 3 0xD2 with word := BitVec.ofNat 64 (0xD2 * 2 ^ 56 + 16 * 2 ^ 10), items := [{ oneItem with st := .done, data := [7] }] }
def watchOp : Op := { opOf 3 0xD3 with cval := 0x1FFFF8, items := [{ oneItem with st := .done, data := leBytes 8 7 }] }
theorem test_landing_forms : (∀ o ∈ [redOp, watchOp], (withOp o four).opDone o = true ∧ ((withOp o four).cohort 1).st = .resident ∧
      auxFlc o.aux = 0 ∧ o.subtracts = false) ∧ redOp.opc = 0xD2 ∧ redOp.cfield.testBit 4 = true ∧ watchOp.opc = 0xD3 ∧
    (four.cohort 1).linInside (watchOp.cval.toNat % 2 ^ 21) 8 = true := by decide +kernel
/-- The entry of tag 0 of a saved gang, in flight, in the gang's record of an image at 0. -/
def savedEntry : State :=
  { savedFour with mem := cellsOf 49 [1] ++ cellsOf (256 + 1280) [1, 3] ++ cellsOf (256 + 1280 + 8) [5] ++ cellsOf (256 + 1280 + 16) [5]
                   cohorts := savedFour.cohorts.map fun c => { c with hid := [{ f2 := 0, core := 0, ox := 0, oy := 0, hi0 := 0, hi1 := 0, exited := 0, lastSlot := 1, hstack := 0, gone := false }] } }
theorem test_saved_entry_witness : let o := { opOf 3 0xD0 with time := 5, items := [{ oneItem with st := .done }] }
    let s := withOp o savedEntry; s.opDone o = true ∧ (s.launch? (s.cohort 1).launch).any (fun l =>
      s.savedEntry (s.cohort 1) l.kern 0 0 == some 1536) = true ∧
    (let e := PEntry.ofBytes (s.mem.readN 1536 64); e.st = .inFlight ∧ e.eng = o.eng ∧ e.time = o.time) := by decide +kernel

/-! ## Hypotheses: yields, placement, images -/

/-- A matrix kernel's saved cohort, every pair of the die being held, and a cohort with a higher number. -/
def yieldingState : State :=
  let s := (running |> oneLaunch fun l => { l with kern := { l.kern with mat := true } })
  { s with cohorts := (s.cohorts.map fun c => { c with c := 1 }) ++ [{ s.cohort 1 with id := 9, c := 0, st := .saved }]
           pairs := (List.range 24).map fun i => (i, { Pair.init with holder := some 1 }) }
theorem test_yield_witness : let s := yieldingState
    (match s.dispatchAct 0 with | .yields c d => c.id == 9 && d.id == 1 | _ => false) = true ∧ s.clusterOf (s.cohort 1) = [s.cohort 1] ∧
    (s.cohort 1).saveReq = false ∧ (s.cohort 1).st ≠ .saved ∧ (s.launch? (s.cohort 1).launch).any (fun l =>
      (shadowPlace (s.part 0).shadow (s.part 0).shlen (s.shadowUsed 0) (s.imageRoom (s.cohort 1) l)).isSome) = true := by decide +kernel
theorem test_place_witness : (match placeState.dispatchAct 0 with
    | .place l _ _ => l.argblock.isEmpty && l.kern.data.isEmpty && l.kern.bars.isEmpty
    | _ => false) = true ∧ placeState.spadOk := ⟨by decide +kernel, (fun _ h => nomatch h)⟩

theorem noVector_of {s : State} {v : Nat} (h : s.parts.all (fun p => p.remap.all fun r => !r.v) = true) : noVector s v := by
  intro n r hr
  have hp : (s.part n).remap.all (fun r => !r.v) = true := by
    unfold State.part
    by_cases hn : n < s.parts.length
    · rw [List.getD_eq_getElem?_getD, List.getElem?_eq_getElem hn]; exact List.all_eq_true.mp h _ (List.getElem_mem hn)
    · rw [List.getD_eq_getElem?_getD, List.getElem?_eq_none (by omega)]; decide +kernel
  have := List.all_eq_true.mp hp r (List.mem_of_getElem? hr)
  exact .inl (by simpa using this)

/-- The launch with its gang's kernel, on matrix memories of the reset state. -/
def kernelIs (k : Kern) (s : State) : State := oneLaunch (fun l => { l with kern := k }) s
def reportState : State := kernelIs four.g.kn (atRest (cohortIs (fun c => { c with st := .quiesced, saveReq := true, imageLen := 2 ^ 26 }) running))
theorem report_gangs : reportState.savedGangs 1 = [reportState.g] := by decide +kernel
theorem test_report_witness : reportState.saves (reportState.cohort 1) = true ∧
    (∃ l, reportState.launch? (reportState.cohort 1).launch = some l ∧ Sized reportState (reportState.cohort 1) l) ∧
    reportState.clusterOf (reportState.cohort 1) = [reportState.cohort 1] ∧ noVector reportState 0 := by
  refine ⟨by decide +kernel, ⟨_, rfl, ?_⟩, by decide +kernel, noVector_of (by decide +kernel)⟩
  refine ⟨by decide +kernel, ⟨by (show _ = true); decide +kernel, fun _ h => nomatch h⟩, ?_, ?_, ?_⟩
  · intro g hg
    rw [show (reportState.cohort 1).id = 1 from rfl, report_gangs] at hg
    obtain rfl := List.mem_singleton.mp hg
    exact ⟨by decide +kernel, by decide +kernel, by decide +kernel⟩
  · intro n
    have e : (reportState.pair (reportState.cohort 1).pair).acc = List.replicate 4 [] := by decide +kernel
    have f : (reportState.pair (reportState.cohort 1).pair).nan = List.replicate 4 [] := by decide +kernel
    have z : (List.replicate 4 ([] : Memory)).getD n [] = [] := by
      match n with | 0 | 1 | 2 | 3 => rfl | n + 4 => simp
    rw [e, f, z]
    exact ⟨rfl, rfl, (fun _ h => nomatch h), (fun _ h => nomatch h)⟩
  · refine ⟨fun i => ?_, by decide +kernel, by decide +kernel⟩
    have e : (reportState.pair (reportState.cohort 1).pair).bbuf = List.replicate 2 [] := by decide +kernel
    have f : (reportState.pair (reportState.cohort 1).pair).tags.all (fun t => t.length == 128) = true := by decide +kernel
    have z : (List.replicate 2 ([] : Memory)).getD i [] = [] := by
      match i with | 0 | 1 => rfl | i + 2 => simp
    rw [e, z]
    refine ⟨rfl, ?_, (fun _ h => nomatch h)⟩
    rw [List.getD_eq_getElem?_getD]
    cases h : (reportState.pair (reportState.cohort 1).pair).tags[i]? with
    | none => simp
    | some t => have := List.all_eq_true.mp f t (List.mem_of_getElem? h); simp at this; simp [this]

/-- An image at address 0 of one gang record, whose first section begins at 256 (R374), and one that is damaged. -/
def hidden : Hid := { f2 := 0, core := 0, ox := 0, oy := 0, hi0 := 0, hi1 := 0, exited := 0, lastSlot := 1, hstack := 0, gone := false }
def imaged : State :=
  let k := { four.g.kn with mat := false }
  let s := kernelIs k (cohortIs (fun c => { c with st := .saved, hid := [hidden] }) running)
  { s with pairs := [], g := .idle, mem := cellsOf 0 [1] ++ cellsOf 4 [1] ++ cellsOf 24 (leBytes 4 k.cs) ++ cellsOf 49 [1] }
theorem test_image_witness : (imaged.launch? (imaged.cohort 1).launch).any (fun l => imaged.imageOk (imaged.cohort 1) l.kern &&
      (imaged.fitUnit l.part l.kern [imaged.cohort 1]).isSome) = true ∧
    imaged.clusterOf (imaged.cohort 1) = [imaged.cohort 1] ∧ (imaged.cohort 1).st = .saved ∧ (imaged.cohort 1).toFault = false ∧
    imaged.memOk ∧ (imaged.gangs.all fun g => g.cohort != 1) = true ∧ (imaged.cohort 1).hid = [hidden] ∧ imaged.img (imaged.cohort 1) 4 4 = 1 ∧
    imaged.img (imaged.cohort 1) (imaged.img (imaged.cohort 1) 48 8 + 888) 8 = hidden.f2 ∧
    (savedState.launch? (savedState.cohort 1).launch).any (fun l => !(savedState.imageOk (savedState.cohort 1) l.kern)) = true :=
  ⟨by decide +kernel, by decide +kernel, by decide +kernel, by decide +kernel, by (show _ = true); decide +kernel, by decide +kernel,
   by decide +kernel, by decide +kernel, by decide +kernel, by decide +kernel⟩

/-! ## Hypotheses: hosts and management -/

/-- The launch as number 0 of queue 0. -/
def known : State := running |> oneLaunch fun l => { l with queue := some 0 }
theorem test_takes_command_witness : takesCmd known 0 := by unfold takesCmd; decide +kernel
theorem test_command_witness : (known.launchOf 0 0 0).isSome = true ∧ (known.launchOf 0 0 1) = none ∧
    (known.launchOf 0 0 0).all (fun l => ((known.preempted l 0).bind fun cs => State.askSave 0 none cs known).isSome &&
      ((cohortIs (fun c => { c with st := .faulted }) known).cohortOf l 0).any (fun d => d.st = .faulted && !d.saveReq) &&
      ((cohortIs (fun c => { c with st := .saved, toFault := true }) known).cohortOf l 0).any fun d => d.st = .saved && d.toFault) = true := by
  decide +kernel
/-- QPRI of queue 2 to priority 5 (R399's table: CMD 7), and the same with ARG2 = 1. -/
theorem test_command_step : commandStep 0 7 2 5 0 = some (.qpri 0 2 5) ∧ commandStep 0 7 2 5 1 = none := by decide
theorem test_command_word_unused : (match execCommandWrite 0 (commandBytes 7 2 5 1) known with
    | .next t => (t.part 0).cmd.status == 3 && (t.queue 0 2).prio == 0 | _ => false) = true := by decide +kernel

/-- A command in progress: an invalidation that nothing pins, a halt of a partition at rest, a swap to a context. -/
def busyPart (n : Nat) (p : Part) : Part := { p with en := true, cmd := { cmd := n, a0 := 0, a1 := 0, a2 := 0, status := 1 } }
def commanded (n : Nat) (p : Part) : State := { State.reset with parts := State.reset.parts.set 0 (busyPart n p) }
def context : Ctx := { cohorts := [], launches := [], queues := List.replicate 16 .init, childq := [], s2root := 0, pasidt := 0, sigbase := 0, back := [] }
theorem test_command_done_witness : (commanded 4 .init).commandOver 0 = true ∧ (commanded 8 .init).commandOver 0 = true ∧
    (∀ n ∈ [5, 6], (commanded n .init).commandOver 0 = true) ∧ (commanded 8 .init).part 0 ≠ .init ∧
    (let s := commanded 9 { Part.init with halted := true, swapTo := some 5, contexts := [(5, context)] }
     s.commandOver 0 = true ∧ s.loadable 0 5 = some context) ∧
    (let s := commanded 9 { Part.init with halted := true, swapTo := some 6 }
     s.commandOver 0 = true ∧ s.loadable 0 6 = none) ∧
    (commanded 4 { Part.init with inval := some (1, 0, 4096) }).invalOver 0 = true := by decide +kernel
theorem test_swap_witness : let s := known.setPart 0 { host0 with halted := true }
    (s.part 0).halted = true ∧ (State.askSave 0 none (s.cohortsOfPart 0) s).any (fun u => (u.contextPlace 0).isSome) = true := by
  decide +kernel

/-- A host's read of 8 bytes, and one of a PASID that is revoked, badly formed or not mapped. -/
def hostRead (pasid ord addr : Nat) : HostReq :=
  { part := 0, src := 0, pasid := pasid, space := 0, ord := ord, resp := false, zero := 0, op := .read, addr := addr, len := 8, data := [], slack := 15, late := false, bg := false }
theorem test_host_witness : host.hostRefusal (hostRead 0 0 0x20000) = none ∧
    (match host.hostAccess (hostRead 0 0 0x20000) with | .ok x => x.2 == List.replicate 8 0 | .error _ => false) = true ∧
    (match host.hostAccess (hostRead 0 4 (2 ^ 40)) with | .ok _ => false | .error c => c == codeTranslation) = true ∧
    (hostRead (2 ^ 20 - 1) 0 0).pasid ∈ ((host.setPart 0 { host0 with revoked := [2 ^ 20 - 1] }).part 0).revoked ∧ (host.part 0).en = true ∧
    (hostRead 5 5 0).ord > 4 ∧ (hostRead 0 0 0).src = host.mg.hnode := by decide +kernel
def smallPage : Page := { node := 0, addr := 0, size := 12, r := true, w := true, sc := false, tier := false, psn := false }
/-- A page that the tables give, one found before, and a poisoned root entry. -/
theorem test_translation_witness : (match host.walked 0 0 0x20000 with | .ok pg => pg.size == 30 | .error _ => false) = true ∧
    (match host.translate 0 0 0x20000 with | .ok pg => pg.size == 30 | .error _ => false) = true ∧
    ({ host with poison := [(host.part 0).s2root / 256] } : State).linePoison ((host.part 0).s2root + 8 * (0x20000 / 2 ^ 48)) 8 = true ∧
    (host.keep [{ part := 0, pasid := 1, va := 0, page := smallPage }]).cached 0 1 4095 ≠ [] := by decide +kernel
theorem test_remap_witness : (host.part 0).remap[7]?.isSome = true ∧ 0 < host.parts.length := by decide +kernel

/-- A running module, and one that has not booted. -/
def booted : State := { State.reset with mg := { State.reset.mg with status := 2, hnode := 5 } }
theorem test_management_witness : booted.mg.status = 2 ∧ booted.mg.hnode = 5 ∧ booted.partIdle 3 = true ∧
    ((booted.part 3).setWord 56 (800 + 1200 * 2 ^ 16)).isSome = true ∧ State.reset.mg.status ≠ 2 ∧ running.partIdle 0 = false := by decide +kernel
/-- Equinox counts that call for a change, and a clock that a throttle step can lower. -/
theorem test_clock_witness : let x : EqxChange := { gains := 1, loses := 0, at_ := 0 }
    ((host.setPart 0 { host0 with eqen := true, eqxQ := [x] }).part 0).eqxQ = [x] ∧ 0 < host.parts.length ∧
    0 ∈ diePairs 0 ∧ 825 ≤ (host.pair 0).mhz := by decide +kernel
theorem test_boot_witness : State.reset.mg.status = 0 ∧ (leBytes 64 1).length = 64 ∧ 2 ^ 24 - 64 + 64 ≤ 2 ^ 24 ∧
    ({ State.reset with mg := { State.reset.mg with status := 1 } } : State).mg.status = 1 := by decide +kernel

/-! ## Hypotheses: requests, links and records -/

/-- Each kind of access, alone in a request that has been served; a poisoned line under it. -/
theorem test_sliced_witness : ∀ a ∈ [PAct.read 8, .write [1, 2], .rmw 12 1 0 false, .rmw 15 1 0 true, .red 4 [1, 0, 0, 0]],
    let p : Packet := { packet with elems := [{ item := 0, la := 64, act := a, data := [] }] }
    ((mergeHead (sliceWith p .ready []).draws ((sliceWith p .ready []).slice 0).q).find? fun y => y.2 = .ready) = some (p, .ready) ∧
    (sliceWith p .ready []).linePoison 64 8 = false ∧ (({ sliceWith p .ready [] with poison := [0] } : State).linePoison 64 1) = true := by
  decide +kernel
/-- Two requests of a CXL link with equal slack, by inputs 8 and 0; the last one granted was of input 8, then of input 0. -/
theorem test_cxl_grant_witness : let a : Egress := { egress with input := 8 }
    (link [a, egress] []).grant = some egress ∧ ({ link [a, egress] [] with last := 0 } : CxlLink).grant = some a ∧
    noVector (links true []) 3 ∧ (links true []).op? 7 = none := 
  ⟨by decide +kernel, by decide +kernel, noVector_of (by decide +kernel), by decide +kernel⟩
/-- A packet held for node 0 goes on by port 0, fails without a port, or stays behind one at a port it no longer uses. -/
theorem test_switch_witness : let s : State := { links true [] with mg := { four.mg with porten := 1 } }
    (s.portBusy 0 0 = false ∧ s.portFrom 0 = some 0 ∧ egress.to 0 (homePort 0 packet.la) = true) ∧
    (({ s with ports := [{ port true with q := [] }], mg := { s.mg with porten := 0 } } : State).portFrom 0 = none) ∧
    (({ s with ports := [port true], mg := { s.mg with porten := 2 } } : State).portBusy 0 (homePort 0 packet.la)) = true := by decide +kernel

/-- Where a band may lie, at the ends of die 1 (R207), and where it may not. -/
theorem test_band_witness : inDies 2 0x2400000000 0x2400000000 = true ∧ inDies 2 0x2400000000 0x2400000001 = false ∧
    bandOk 8 0x8FFFFFFFFF 0 = true ∧ bandOk 8 0x9000000000 0 = false ∧ bandOk 15 0x23FFFFFFFF 2 = true := by decide
/-- A ring that is as long as its count, whose last record has the time of a new one and a higher unit. -/
theorem test_ring_witness : let m := State.reset.mg.record 5 9 (errorBytes 1 0 9 1 0 5 0)
    m.ring.length = min m.head 256 ∧ leNat (((m.recordAt (m.head - 1)).drop 16).take 8) = 5 ∧ 3 < leNat (((m.recordAt (m.head - 1)).drop 2).take 2) ∧
    m.head = 1 := by decide +kernel
/-- A throttle step in force on die 0, at whose end pair 0 has its clock back. -/
theorem test_throttle_witness : let m : Mgmt := { State.reset.mg with throttled := [(0, [0])] }
    m.throttled.find? (fun x => x.1 = 0) = some (0, [0]) ∧ ([0] : List Nat).Nodup := by decide +kernel
/-- Requests to the control space and to MNODE of a running module, one while no image runs. -/
theorem test_request_witness : ({ host with mg := booted.mg } : State).mg.status = 2 ∧ (host.part 0).en = true ∧ (hostRead 0 0 0).part < 4 ∧
    State.reset.mg.status ≠ 2 ∧ (hostRead 0 0 0).resp = false ∧ ({ hostRead 0 0 0 with part := 4, space := 2 } : HostReq).len = 8 := by decide +kernel

/-! ## Hypotheses: stepping, landing and memory -/

/-- A word that runs, one that traps, an event that is due, and a module at rest. -/
theorem test_step_witness : (State.reset.withFetchWord 64 0x240021308B8000C0).markEligible.due = none ∧
    (let s := (State.reset.withFetchWord 64 0x240021308B8000C0).markEligible
     s.may = [] ∧ s.choice.any (fun c => (s.select c.1.cohort c.1.f2 c.2).fetched.toOption.isSome) = true) ∧
    (let s := (State.reset.withFetchWord 64 0).markEligible
     s.choice.any (fun c => (s.select c.1.cohort c.1.f2 c.2).fetched.toOption.isNone) = true) ∧
    (four |> slots (fun _ => live 8 3) (fun _ => live 8 12)).markEligible.due.isSome = true ∧
    (State.reset.markEligible.due = none ∧ State.reset.markEligible.may = [] ∧ State.reset.markEligible.choice = none) := by decide +kernel
theorem test_choice_witness : let s : State := { State.reset with mg := { State.reset.mg with status := 1 } }
    s.markEligible.due = none ∧ s.markEligible.may ≠ [] := by decide +kernel
theorem test_blocked_view_witness : (State.reset.withFetchWord 64 0x240021308B8000C0).blockedView.isSome = true := by decide +kernel
theorem test_misaligned_witness : (four |> slots (fun x => { x with pc := 2 }) id).g.here.pc % 4 ≠ 0 ∧ four.g.here.pc % 4 = 0 := by
  decide +kernel

/-- Decode faults, STALL_SHORT of a checked gang, and guards that are false in every lane. -/
def checked : State :=
  { four with g := { four.g with chk := true, pend := [{ due := 2, slot := 0, tgt := .s 9, val := 1 }] } }
theorem test_issue_faults_witness :
    (decodeFault four.land.g (.cf 0x20 (fl 4 265 266 0 64)) (stepView four (.cf 0x20 (fl 4 265 266 0 64)))).isSome = true ∧
    decodeFault checked.land.g (.cf 0x20 (fl 264 265 266 0 64)) (stepView checked (.cf 0x20 (fl 264 265 266 0 64))) = none ∧
    checked.land.g.chk = true ∧ 
    (let w := stepView checked (.cf 0x20 (fl 264 265 266 0 64))
     checked.free w (alsoOf checked.land w) ∧ (checked.land.short w (alsoOf checked.land w)).isSome = true) := by
  unfold State.free; decide +kernel
/-- The same in text that Oliesh wrote. -/
theorem test_waits_witness : let s := { checked with g := { checked.g with kn := { checked.g.kn with waits := true } } }
    s.land.g.kn.waits = true ∧ checked.land.g.kn.waits = false ∧ (let w := stepView s (.cf 0x20 (fl 264 265 266 0 64))
      decodeFault s.land.g (.cf 0x20 (fl 264 265 266 0 64)) w = none ∧ s.free w (alsoOf s.land w) ∧
      (s.land.short w (alsoOf s.land w)).isSome = true) := by unfold State.free; decide +kernel
/-- The special unit of core 0 works up to cycle 9. -/
def busyUnit : State := four.setPair 0 { four.pair 0 with busy := [{ core := 0, unit := .special 0, free := 9 }] }
/-- The word is `rsqrt v3, v4`, which takes that unit. -/
theorem test_occupied_witness : let v := View.cf 0x7B (fl 3 4 0 0 0x240); let w := stepView busyUnit v
    decodeFault busyUnit.land.g v w = none ∧ ¬busyUnit.free w (alsoOf busyUnit.land w) := by unfold State.free; decide +kernel
theorem test_skip_witness : four.land.acts (under 1) = false ∧ (∀ op ∈ [0x20, 0x36, 0x37], (four.readsF op (fields 1 264 265 352 0 16 .none)).acts (under 1) = false) ∧
    letsB four (.cf 0x20 (fields 1 264 265 266 0 64 .none)) (.cf 0x20 (four.stepped (fields 1 264 265 266 0 64 .none))) = true ∧
    letsB four (.cj 0x02 { jf 0 (-6) none with h := under 1 }) (.cj 0x02 { jf 0 (-6) none with h := under 1 }) = true ∧
    letsB four (.cs 0x11 { sf 264 0 13 with h := under 1 }) (.cs 0x11 { sf 264 0 13 with h := under 1 }) = true ∧
    letsB four (.cf 0x36 (fields 1 264 265 352 0 16 .none)) (.cf 0x36 (four.stepped (fields 1 264 265 352 0 16 .none))) = true ∧
    letsB four (.cf 0x37 (fields 1 264 265 352 0 16 .none)) (.cf 0x37 (four.stepped (fields 1 264 265 352 0 16 .none))) = true := by
  decide +kernel
/-- The last register of each kind. -/
theorem test_registers_witness : tgtOk four.g (.v 3 15) ∧ tgtOk four.g (.s 63) ∧ tgtOk four.g (.p 3 15) ∧ tgtOk four.g (.o 3 1 7) ∧
    tgtOk four.g (.l 3 1 1) ∧ tgtOk four.g (.m 7) ∧ tgtOk four.g (.k 7) := by unfold tgtOk; decide +kernel
theorem test_memory_witness : tables.wf = true ∧ four.memOk ∧ four.spadOk ∧ State.reset.memOk ∧ State.reset.spadOk :=
  ⟨by decide +kernel, by (show _ = true); decide +kernel, (fun _ h => nomatch h), by (show _ = true); decide +kernel, (fun _ h => nomatch h)⟩
theorem test_effect_witness : ∀ op ∈ [FxOp.store [1, 2, 3, 4], .atom 0 1 0 0 4, .bini 1], let n := match op with | .bini _ => 16 | _ => 4
    let x : Fx := { due := 0, slot := 0, core := 0, addr := 16, len := n, deps := [], op := op }
    (x.result (x.reads (four.pad 0))).1.length = n ∧ x.old = none := by decide +kernel
/-- R32: a word goes on from any state, and leaves memory; a trap enters handler mode. -/
theorem test_word_witness : (Instr.view (.trap (fl 0 265 0 0 0))).isSome = true ∧ ∃ t, exec (.trap (fl 0 265 0 0 0)) four = .next t ∧
    t.g.mode = true := ⟨by decide +kernel, _, rfl, by decide +kernel⟩
theorem test_unassigned_witness : assigned (wordOp (baseWord 0xFFFFFFFF 0x15FFFFFF)) = false ∧ four.g.here.pc % 4 = 0 := by decide +kernel

end Sys2Proof.Tests
end

section
/-! SUPPORT. Settles the statement about unassigned opcodes (spec/03 R43 to R45, R64, R65): the decoder has an instruction only for a view
with an assigned opcode, so what any other base word gives depends neither on its other fields nor on the units after it. -/
namespace Sys2Proof.Proofs.WordFormats

open Sys2Proof Sys2Proof.Machine Sys2Proof.Claims

/-! ## Unassigned opcodes (R64) -/

theorem assigned_eq_false_iff {op : Nat} (hop : op < 256) : assigned op = false ↔
    op = 0 ∨ (0x15 ≤ op ∧ op ≤ 0x1F) ∨ (0x3C ≤ op ∧ op ≤ 0x3F) ∨ (0x5D ≤ op ∧ op ≤ 0x6F) ∨ (0x87 ≤ op ∧ op ≤ 0x8F) ∨
    (0x97 ≤ op ∧ op ≤ 0x9F) ∨ (0xB1 ≤ op ∧ op ≤ 0xBF) ∨ (0xCD ≤ op ∧ op ≤ 0xCF) ∨ (0xDE ≤ op ∧ op ≤ 0xDF) ∨ 0xEC ≤ op := by
  simp only [assigned, List.any_cons, List.any_nil, Bool.or_false, Bool.or_eq_false_iff, Bool.and_eq_false_iff, decide_eq_false_iff_not]
  omega

theorem assigned_eq_true_iff {op : Nat} : assigned op = true ↔
    (0x01 ≤ op ∧ op ≤ 0x14) ∨ (0x20 ≤ op ∧ op ≤ 0x3B) ∨ (0x40 ≤ op ∧ op ≤ 0x5C) ∨ (0x70 ≤ op ∧ op ≤ 0x86) ∨
    (0x90 ≤ op ∧ op ≤ 0x96) ∨ (0xA0 ≤ op ∧ op ≤ 0xB0) ∨ (0xC0 ≤ op ∧ op ≤ 0xCC) ∨ (0xD0 ≤ op ∧ op ≤ 0xDD) ∨
    (0xE0 ≤ op ∧ op ≤ 0xEB) := by
  simp only [assigned, List.any_cons, List.any_nil, Bool.or_false, Bool.or_eq_true, Bool.and_eq_true, decide_eq_true_eq]

theorem lt_256_of_assigned {op : Nat} (h : assigned op = true) : op < 256 := by
  rw [assigned_eq_true_iff] at h
  omega

theorem assigned_of_isJ {op : Nat} (h : isJ op = true) : assigned op = true := by
  simp only [isJ, Bool.and_eq_true, decide_eq_true_eq] at h
  rw [assigned_eq_true_iff]
  omega

theorem assigned_of_isS {op : Nat} (h : isS op = true) : assigned op = true := by
  simp only [isS, Bool.or_eq_true, decide_eq_true_eq] at h
  rw [assigned_eq_true_iff]
  omega

theorem assigned_of_isQ {op : Nat} (h : op = 0x0B) : assigned op = true := h ▸ rfl

/-- A gap of the table is checked opcode by opcode. -/
theorem instr_cf_of_gap {lo hi op : Nat} {f : Fields} (hl : lo ≤ op) (hu : op ≤ hi)
    (hgap : (List.range' lo (hi + 1 - lo)).all (fun n => (View.instr (.cf n f)).isNone) = true) : View.instr (.cf op f) = none := by
  have hmem : op ∈ List.range' lo (hi + 1 - lo) := List.mem_range'_1.mpr ⟨hl, by omega⟩
  exact Option.isNone_iff_eq_none.mp (List.all_eq_true.mp hgap op hmem)

/-- No arm of `View.instr` names an opcode in a gap of the table. -/
theorem instr_cf_of_unassigned {op : Nat} (hop : op < 256) (h : assigned op = false) (f : Fields) : View.instr (.cf op f) = none := by
  have hu : op ≤ 0xFF := Nat.le_of_lt_succ hop
  rw [assigned_eq_false_iff hop] at h
  obtain rfl | ⟨hl, hu⟩ | ⟨hl, hu⟩ | ⟨hl, hu⟩ | ⟨hl, hu⟩ | ⟨hl, hu⟩ | ⟨hl, hu⟩ | ⟨hl, hu⟩ | ⟨hl, hu⟩ | hl := h
  · rfl
  all_goals exact instr_cf_of_gap hl hu rfl

/-! ## The view of a base word -/

theorem wordOp_lt (w : W64) : wordOp w < 256 := BitVec.isLt _

/-- R45: outside the classes J, S and Q a base word has the fields D, A, B, C and MINOR. -/
theorem wordView_of_fields {w : W64} (hJ : isJ (wordOp w) = false) (hS : isS (wordOp w) = false) (hQ : wordOp w ≠ 0x0B)
    (rest : List W32) :
    wordView w rest = (readLit (litCodes (opShape (wordOp w) (wordFields w)) (wordFields w)).head? rest).map
      fun l => .cf (wordOp w) { wordFields w with lit := l } := by
  simp [wordView, hJ, hS, hQ]

/-- R65: no instruction begins with a base word of an unassigned opcode. -/
theorem instr_wordView_of_unassigned {w : W64} (h : assigned (wordOp w) = false) (rest : List W32) :
    (wordView w rest).bind View.instr = none := by
  have hnot : ¬ assigned (wordOp w) = true := by simp [h]
  have hJ : isJ (wordOp w) = false := Bool.eq_false_iff.mpr (hnot ∘ assigned_of_isJ)
  have hS : isS (wordOp w) = false := Bool.eq_false_iff.mpr (hnot ∘ assigned_of_isS)
  rw [wordView_of_fields hJ hS (hnot ∘ assigned_of_isQ)]
  cases readLit (litCodes (opShape (wordOp w) (wordFields w)) (wordFields w)).head? rest with
  | none => rfl
  | some l => exact instr_cf_of_unassigned (wordOp_lt w) h _

/-! ## Where no instruction stands (R44, R65) -/

section
variable {lo hi : W32} {rest : List W32}

theorem decode_eq_illegalOpcode (h : (wordView (baseWord lo hi) rest).bind View.instr = none) :
    decode (lo :: hi :: rest) = .error ⟨.illegalOpcode, 0, 0⟩ := by
  cases hv : wordView (baseWord lo hi) rest with
  | none => simp [decode, hv]
  | some v =>
    rw [hv, Option.bind_some] at h
    simp [decode, hv, h]

theorem unitLength_eq_eight (h : (wordView (baseWord lo hi) (rest ++ [0, 0])).bind View.instr = none) :
    unitLength (lo :: hi :: rest) = 8 := by
  cases hv : wordView (baseWord lo hi) (rest ++ [0, 0]) with
  | none => simp only [unitLength, hv]
  | some v =>
    rw [hv, Option.bind_some] at h
    simp only [unitLength, hv, h, Option.isSome_none, Bool.false_eq_true, if_false]

/-- The faults of a gang and of a repetition are looked at only where an instruction stands. -/
theorem wordFault_eq_self {s : State} (hf : s.fetch = lo :: hi :: rest) (h : (wordView (baseWord lo hi) rest).bind View.instr = none)
    (e : Flt) : s.wordFault e = e := by
  cases hv : wordView (baseWord lo hi) rest with
  | none => simp [State.wordFault, hf, hv]
  | some v =>
    rw [hv, Option.bind_some] at h
    simp [State.wordFault, hf, hv, h]

end

theorem fetched_eq_decode {s : State} (h : s.g.here.pc % 4 = 0) : s.fetched = decode s.fetch := by
  simp [State.fetched, h]

/-! ## The fields of an encoded word (R43, R45)

The two layouts are written with the widths of their parts, so that the library's rules for a slice of an append apply. -/

theorem baseWord_extractLsb' (w : W64) : baseWord (w.extractLsb' 0 32) (w.extractLsb' 32 32) = w :=
  (BitVec.extractLsb'_append_extractLsb'_eq_extractLsb' (start₁ := 0) (len₁ := 32) rfl).trans BitVec.extractLsb'_eq_self

theorem extractLsb'_encHead (op : Nat) (h : Hdr) (start len : Nat) : (encHead op h).extractLsb' start len =
    BitVec.extractLsb' (n := 8 + 1 + 4 + 4 + 1) start len
      (BitVec.ofNat 8 op ++ BitVec.ofBool h.n ++ h.g ++ h.stall ++ BitVec.ofBool h.region) := rfl

theorem extractLsb'_encFields (op : Nat) (f : Fields) (start len : Nat) : (encFields op f).extractLsb' start len =
    BitVec.extractLsb' (n := 18 + 9 + 9 + 9 + 9 + 10) start len
      (encHead op f.h ++ f.d ++ f.a ++ f.b ++ f.c ++ f.minor) := rfl

theorem extractLsb'_encFields_head (op : Nat) (f : Fields) {start len : Nat} (h : 46 ≤ start) :
    (encFields op f).extractLsb' start len = (encHead op f.h).extractLsb' (start - 46) len := by
  simp (disch := omega) only [extractLsb'_encFields, BitVec.extractLsb'_append_eq_of_le, Nat.sub_sub]

theorem getLsbD_encFields_head (op : Nat) (f : Fields) {i : Nat} (h : 46 ≤ i) :
    (encFields op f).getLsbD i = ((encHead op f.h).extractLsb' (i - 46) 1).getLsbD 0 := by
  rw [← extractLsb'_encFields_head op f h]
  simp

theorem wordOp_encFields {op : Nat} (hop : op < 256) (f : Fields) : wordOp (encFields op f) = op := by
  have hslice : (encFields op f).extractLsb' 56 8 = BitVec.ofNat 8 op := by
    simp (disch := decide) only [extractLsb'_encFields_head, extractLsb'_encHead, BitVec.extractLsb'_append_eq_of_le,
      BitVec.extractLsb'_eq_self, Nat.reduceSub, -Nat.reduceAdd]
  rw [wordOp, hslice, BitVec.toNat_ofNat, Nat.mod_eq_of_lt hop]

theorem wordHdr_encFields (op : Nat) (f : Fields) : wordHdr (encFields op f) = f.h := by
  simp (disch := decide) only [wordHdr, getLsbD_encFields_head, extractLsb'_encFields_head, extractLsb'_encHead,
    BitVec.extractLsb'_append_eq_of_le, BitVec.extractLsb'_append_eq_of_add_le, BitVec.extractLsb'_eq_self, Nat.reduceSub, -Nat.reduceAdd]
  simp

theorem wordFields_encFields (op : Nat) (f : Fields) : wordFields (encFields op f) = { f with lit := .none } := by
  simp (disch := decide) only [wordFields, wordHdr_encFields, extractLsb'_encFields, BitVec.extractLsb'_append_eq_of_le,
    BitVec.extractLsb'_append_eq_of_add_le, BitVec.extractLsb'_eq_self, Nat.reduceSub, -Nat.reduceAdd]

/-! ## A literal past the end of the text (R44) -/

theorem eq_384_or_385_of_mem_litCodes {sh : Shape} {f : Fields} {c : Nat} (h : c ∈ litCodes sh f) : c = 384 ∨ c = 385 := by
  simpa using (List.mem_filter.mp h).2

theorem readLit_litCodes_nil {sh : Shape} {f : Fields} (h : litCodes sh f ≠ []) : readLit (litCodes sh f).head? [] = none := by
  obtain ⟨c, cs, hc⟩ := List.exists_cons_of_ne_nil h
  have hmem : c ∈ litCodes sh f := hc ▸ List.mem_cons_self
  rw [hc]
  obtain rfl | rfl := eq_384_or_385_of_mem_litCodes hmem
  · rfl
  · rfl

/-- The fields that call for a literal are read back from the word, and no unit is left to hold it. -/
theorem decode_encBase_of_litCodes {op : Nat} {f : Fields} (hop : op < 256) (hJ : isJ op = false) (hS : isS op = false) (hQ : op ≠ 0x0B)
    (hlit : f.lit = .none) (hcodes : litCodes (opShape op f) f ≠ []) :
    decode (encBase (encFields op f)) = .error ⟨.illegalOpcode, 0, 0⟩ := by
  have hw : wordOp (encFields op f) = op := wordOp_encFields hop f
  have hf : wordFields (encFields op f) = f := by rw [wordFields_encFields, ← hlit]
  have hv : wordView (encFields op f) [] = none := by
    rw [wordView_of_fields (by rwa [hw]) (by rwa [hw]) (by rwa [hw]), hw, hf, readLit_litCodes_nil hcodes, Option.map_none]
  exact decode_eq_illegalOpcode (by rw [baseWord_extractLsb', hv, Option.bind_none])

/-- Settles O48: an unassigned opcode has no instruction, so nothing else about the word is looked at; a literal cut off by the end of the
text leaves the word without a view. -/
theorem unassignedRefused : Obligations.UnassignedRefused := by
  unfold Obligations.UnassignedRefused
  refine ⟨fun lo hi more hun => ?_, fun op => assigned_eq_false_iff, fun more => ?_, rfl, fun _ => rfl, ?_⟩
  · have hdec := decode_eq_illegalOpcode (instr_wordView_of_unassigned hun more)
    refine ⟨hdec, unitLength_eq_eight (instr_wordView_of_unassigned hun _), fun s hpc hfetch => ⟨?_, ?_⟩⟩
    · rw [fetched_eq_decode hpc, hfetch, hdec]
    · exact wordFault_eq_self hfetch (instr_wordView_of_unassigned hun more) _
  · exact decode_eq_illegalOpcode (instr_wordView_of_unassigned (by decide) more)
  · intro op f hop hJ hS hQ hlit hcodes
    exact decode_encBase_of_litCodes (lt_256_of_assigned hop) hJ hS hQ hlit hcodes

end Sys2Proof.Proofs.WordFormats
end

section
/-! SUPPORT. Settles the statement about `nop` (spec/05 R93): it has no source register, so its issue fixes no result in flight, and what its slot
goes on with is what every word of one issue cycle leaves (spec/02 R34, R35, spec/18 R367). -/
namespace Sys2Proof.Proofs.ControlScalar

open Sys2Proof Sys2Proof.Machine Sys2Proof.Claims

/-! ## A word that reads no register (R37, R231) -/

theorem fixFx_eq_self {s : State} {hit : Fx → Bool} (h : ∀ x, hit x = false) : s.fixFx hit = s := by
  simp [State.fixFx, h]

theorem fixResults_eq_self {s : State} {hit : Fx → Bool} (h : ∀ x, hit x = false) : s.fixResults hit = s := by
  simp [State.fixResults, fixFx_eq_self, h]

theorem loadIf_eq_self {s : State} {now : Load → Bool} (h : ∀ x, now x = false) : s.loadIf now = s := by
  have hnow : s.g.loads.filter now = [] := List.filter_eq_nil_iff.mpr fun x _ => by simp [h]
  have hlater : (s.g.loads.filter fun x => !now x) = s.g.loads := List.filter_eq_self.mpr fun x _ => by simp [h]
  unfold State.loadIf
  rw [hnow, List.foldl_nil]
  dsimp only
  rw [hlater]

/-- A word without sources waits for no RMW's result, so no RMW has its place fixed for it. -/
theorem fixRead_eq_self {s : State} {v : View} {also : Also} (hsrc : ∀ k, srcsOf s.g k v = []) (hupd : updateSrcs s.g v = [])
    (halso : also.srcs = []) : s.fixRead v also = s := by
  unfold State.fixRead
  split
  · rfl
  · have hnone : ((s.readers v also.moved).flatMap fun k => (srcsOf s.g k.1 v).map (·.2)) ++
        (updateSrcs s.g v ++ also.srcs).map (·.2) = [] := by simp [hsrc, hupd, halso]
    have hhit : ∀ n : Nat, ((s.g.pend.filter fun p => p.rmw != 0 && ([] : List Tgt).contains p.tgt).map (·.rmw)).contains n = false :=
      fun n => by simp
    dsimp only
    rw [hnone, fixResults_eq_self fun x => hhit x.num, loadIf_eq_self fun x => hhit x.num]

/-! ## Going on after one issue (R34, R35, R367) -/

theorem take_cyc (s : State) (us : List (ExecUnit × Nat)) : (s.take us).cyc = s.cyc := by
  show (assoc (assocSet s.pairs s.coh.pair _) s.coh.pair Pair.init).cyc = s.cyc
  rw [assoc_assocSet]
  rfl

theorem assoc_assocSet_of_ne {α : Type} {j k : Nat} (h : j ≠ k) (x d : α) (l : List (Nat × α)) :
    assoc (assocSet l k x) j d = assoc l j d := by
  induction l with
  | nil => simp [assoc, assocSet, h.symm]
  | cons y ys ih =>
    obtain ⟨i, y⟩ := y
    simp only [assocSet]
    split
    · next hik => simp [assoc, hik, h.symm]
    · by_cases hij : i = j
      · simp [assoc, hij]
      · simpa [assoc, List.find?_cons, hij] using ih

/-- Taking units changes no pair but in the units taken. -/
theorem samePairs_take (s : State) (us : List (ExecUnit × Nat)) : samePairs s (s.take us) := by
  intro n
  by_cases h : n = s.coh.pair
  · subst h
    have hpair : (s.take us).pair s.coh.pair = (s.pair s.coh.pair).take s.g.core us := assoc_assocSet _ _ _ _
    rw [hpair]
    rfl
  · have hpair : (s.take us).pair n = s.pair n := assoc_assocSet_of_ne h _ _ _
    rw [hpair]

theorem countIssue_here (s : State) (h : Hdr) (pc : Nat) : (countIssue s h pc).g.here = s.g.here := rfl

section finish
variable (s u : State) (v : View) (also : Also) (n : Nat)

/-- A word that issues takes its units, moves its slot on and counts. -/
theorem finish_seq : finish s v also u (.seq n) =
    countIssue ((u.take (s.taken v also)).setHere { (u.g.here.past v.length) with
      next := (u.take (s.taken v also)).cyc + n + v.hdr.stall.toNat, block := .none }) v.hdr s.g.here.pc := rfl

theorem finish_seq_cohorts : (finish s v also u (.seq n)).cohorts = u.cohorts := rfl
theorem finish_seq_s : (finish s v also u (.seq n)).g.s = u.g.s := Gang.setHere_s _ _
theorem finish_seq_m : (finish s v also u (.seq n)).g.m = u.g.m := Gang.setHere_m _ _
theorem finish_seq_k : (finish s v also u (.seq n)).g.k = u.g.k := Gang.setHere_k _ _
theorem finish_seq_lanes : (finish s v also u (.seq n)).g.lanes = u.g.lanes := Gang.setHere_lanes _ _
theorem finish_seq_pend : (finish s v also u (.seq n)).g.pend = u.g.pend := Gang.setHere_pend _ _
theorem finish_seq_fx : (finish s v also u (.seq n)).g.fx = u.g.fx := Gang.setHere_fx _ _
theorem finish_seq_prom : (finish s v also u (.seq n)).g.prom = u.g.prom := Gang.setHere_prom _ _

theorem finish_seq_here : (finish s v also u (.seq n)).g.here =
    { (u.g.here.past v.length) with next := u.cyc + n + v.hdr.stall.toNat, block := .none } := by
  rw [finish_seq, countIssue_here, State.setHere_g, Gang.setHere_here, take_cyc]

theorem finish_seq_regpc : (finish s v also u (.seq n)).g.regpc = regionPc v.hdr s.g.here.pc u.g.regpc :=
  congrArg (regionPc v.hdr s.g.here.pc) (Gang.setHere_regpc _ _)
theorem finish_seq_regcnt : (finish s v also u (.seq n)).g.regcnt = regionCnt v.hdr u.g.regcnt :=
  congrArg (regionCnt v.hdr) (Gang.setHere_regcnt _ _)

theorem samePairs_finish_seq : samePairs u (finish s v also u (.seq n)) := samePairs_take u (s.taken v also)

end finish

theorem past_mask (x : Slot) (len : Nat) : (x.past len).mask = x.mask := by
  unfold Slot.past
  split <;> rfl

/-- Without a repeat in progress the slot stands at the next instruction (R91). -/
theorem past_pc_of_nrep_eq_zero {x : Slot} (h : x.rep.nrep = 0) (len : Nat) : (x.past len).pc = x.pc + len := by
  simp [Slot.past, h]

/-! ## Faults that an issue does not have (R40, R63) -/

theorem firstFault_eq_none_iff {xs : List Flt} : firstFault xs = none ↔ xs = [] := by
  cases xs with
  | nil => simp [firstFault]
  | cons x xs =>
    simp only [firstFault, reduceCtorEq, iff_false]
    split
    · simp
    · split <;> simp

/-- A word that R63 lets no `rpt` precede issues only where no repeat is in progress. -/
theorem nrep_eq_zero_of_letsF {s : State} {op : Nat} {f : Fields} {also : State → Fields → Also} (hop : repeatable op = false)
    (h : s.letsF op f also) : s.land.g.here.rep.nrep = 0 := by
  have hrep : repFaults s.land.g.here.rep (.cf op f) = [] := by
    have hall := firstFault_eq_none_iff.mp h.1
    simp only [List.append_eq_nil_iff] at hall
    exact hall.1.2
  by_cases hn : s.land.g.here.rep.nrep = 0
  · exact hn
  · simp [repFaults, hn, hop] at hrep

/-! ## nop -/

theorem srcsOf_nop (g : Gang) (k : Nat) (f : Fields) : srcsOf g k (.cf 0x01 f) = [] := by
  simp [srcsOf, opShape, dIsSource, posTgts, Pos.isOperand]

theorem readsF_nop (s : State) (f : Fields) : s.readsF 0x01 f = s.land :=
  fixRead_eq_self (fun k => srcsOf_nop _ k _) rfl rfl

theorem length_nop {f : Fields} (h : (Instr.nop f).wellFormed = true) : (View.cf 0x01 f).length = 8 := by
  have hlit : litFits (opShape 0x01 f) f = true := (Bool.and_eq_true_iff.mp h).2
  have hcodes : litCodes (opShape 0x01 f) f = [] := rfl
  cases hf : f.lit with
  | none => simp [View.length, Lit.bytes, hf]
  | w32 w => simp [litFits, hcodes, hf] at hlit
  | w64 w => simp [litFits, hcodes, hf] at hlit

/-- A `nop` that nothing stops leaves what its slot goes on with after one issue, whatever its guard (R93). -/
theorem exec_nop_of_letsF {s : State} {f : Fields} (h : s.letsF 0x01 f) :
    exec (.nop f) s = .next (finish s.land (.cf 0x01 f) .none_ s.land (.seq 1)) := by
  have hstep : s.stepped f = f := stepFields_none (nrep_eq_zero_of_letsF rfl h) f
  calc exec (.nop f) s = .next (s.pastF (s.readsF 0x01 f) 0x01 f (.seq 1)) :=
        issueF_ok (body := fun s _ => .ok (s, .seq 1)) h rfl
    _ = .next (finish s.land (.cf 0x01 f) .none_ s.land (.seq 1)) := by
      rw [readsF_nop, State.pastF, hstep, State.past, noAlso]

/-- Settles O4: the word reads nothing, so the state it issues in is the one in which results due have landed, and only its slot, the region
state, the counts and the units that its issue takes change from there. -/
theorem nopDoesNothing : Obligations.NopDoesNothing := by
  unfold Obligations.NopDoesNothing
  intro f s hwf h
  have hnrep := nrep_eq_zero_of_letsF rfl h
  refine ⟨_, exec_nop_of_letsF h, finish_seq_s .., finish_seq_m .., finish_seq_k .., finish_seq_lanes .., finish_seq_pend ..,
    finish_seq_fx .., finish_seq_prom .., finish_mem .., finish_spad .., finish_ops .., finish_seq_cohorts .., samePairs_finish_seq _ _ _ _ _,
    finish_others .., ?_, ?_, ?_, ?_, ?_⟩
  · rw [finish_seq_here]
    exact past_mask _ _
  · rw [finish_seq_here, ← length_nop hwf]
    exact past_pc_of_nrep_eq_zero hnrep _
  · rw [finish_seq_here]
    rfl
  · intro hregion
    rw [finish_seq_regpc, finish_seq_regcnt]
    exact ⟨if_pos hregion, if_pos hregion⟩
  · intro hregion
    have hoff : ¬ f.h.region = true := by simp [hregion]
    rw [finish_seq_regpc, finish_seq_regcnt]
    exact ⟨if_neg hoff, if_neg hoff⟩

end Sys2Proof.Proofs.ControlScalar
end

section
/-! SUPPORT. Settles the statement about `elect` (spec/08 R196): its participants stand in lane order, so the one that its body marks, the head of
their list, is the least; what its issue leaves beyond the results in flight is what every word of one issue cycle leaves (spec/02 R34). -/
namespace Sys2Proof.Proofs.GridInstructions

open Sys2Proof Sys2Proof.Machine Sys2Proof.Claims Sys2Proof.Proofs.ControlScalar

/-! ## Fields that a word's entry accepts (R40, R46, R47) -/

theorem ofCode_eq_p_iff {c n : Nat} : Opnd.ofCode c = .p n ↔ n < 16 ∧ c = n + 320 := by
  unfold Opnd.ofCode
  repeat' split
  all_goals simp only [Opnd.p.injEq, reduceCtorEq, false_iff]
  all_goals omega

/-- R21: a predicate destination is a p code other than p0. -/
theorem accepts_pD_iff {c : Nat} : Pos.accepts .pD c = true ↔ 320 < c ∧ c < 336 := by
  have hp : Pos.accepts .pD c = true ↔ ∃ n, Opnd.ofCode c = .p n ∧ n ≠ 0 := by
    cases h : Opnd.ofCode c <;> simp [Pos.accepts, h]
  simp only [hp, ofCode_eq_p_iff]
  constructor
  · rintro ⟨n, ⟨hlt, hc⟩, hn⟩
    omega
  · rintro ⟨hlo, hhi⟩
    exact ⟨c - 320, ⟨by omega, by omega⟩, by omega⟩

theorem posFaults_unused_eq_nil_iff {c i : Nat} : posFaults .unused c i = [] ↔ c = 0 := by simp [posFaults]

theorem posFaults_eq_nil_iff {q : Pos} (hq : q ≠ .unused) {c i : Nat} : posFaults q c i = [] ↔ q.accepts c = true := by
  simp [posFaults, hq]

/-- A word of operand fields that is well-formed breaks no check of its entry. -/
theorem fieldFaults_eq_nil_of_wellFormed {i : Instr} {op : Nat} {f : Fields} (hv : i.view = some (.cf op f)) (h : i.wellFormed = true) :
    fieldFaults (opShape op f) f = [] := by
  simp only [Instr.wellFormed, hv, Bool.and_eq_true, Option.isNone_iff_eq_none] at h
  exact firstFault_eq_none_iff.mp h.1

/-- R196: the D of `elect` is a p code other than p0, and A, B, C and MINOR are zero. -/
theorem elect_fields {f : Fields} (h : (Instr.elect f).wellFormed = true) :
    320 < f.d.toNat ∧ f.d.toNat < 336 ∧ f.a = 0 ∧ f.b = 0 ∧ f.c = 0 ∧ f.minor = 0 := by
  have hf := fieldFaults_eq_nil_of_wellFormed (op := 0x14) rfl h
  simp only [fieldFaults, List.append_eq_nil_iff] at hf
  obtain ⟨⟨⟨⟨⟨⟨⟨-, hres⟩, hd⟩, ha⟩, hb⟩, hc⟩, -⟩, -⟩ := hf
  obtain ⟨hlo, hhi⟩ := accepts_pD_iff.mp ((posFaults_eq_nil_iff (by decide)).mp hd)
  refine ⟨hlo, hhi, ?_, ?_, ?_, ?_⟩
  · exact BitVec.eq_of_toNat_eq (posFaults_unused_eq_nil_iff.mp ha)
  · exact BitVec.eq_of_toNat_eq (posFaults_unused_eq_nil_iff.mp hb)
  · exact BitVec.eq_of_toNat_eq (posFaults_unused_eq_nil_iff.mp hc)
  · simpa [opShape] using hres

/-! ## Participants in lane order (R195) -/

theorem performing_pairwise_lt (s : State) (h : Hdr) : (s.performing h).Pairwise (· < ·) :=
  (List.pairwise_lt_range.filter _).filter _

theorem performing_head_le {s : State} {h : Hdr} {n : Nat} {ks : List Nat} (hp : s.performing h = n :: ks) : ∀ k ∈ ks, n ≤ k := by
  have hlt := performing_pairwise_lt s h
  rw [hp, List.pairwise_cons] at hlt
  exact fun k hk => Nat.le_of_lt (hlt.1 k hk)

/-! ## What a word of one issue cycle leaves around its gang (R34) -/

theorem sameAround_addPends (s : State) (ps : List Pend) : sameAround s (s.addPends ps) := ⟨rfl, fun _ => rfl⟩

theorem keepsRegs_addPends (s : State) (ps : List Pend) : keepsRegs s (s.addPends ps) :=
  ⟨rfl, rfl, rfl, rfl, rfl, rfl, rfl, rfl, rfl, rfl, rfl, rfl, rfl, rfl, rfl⟩

theorem sameAround_finish_seq {u t : State} (h : sameAround u t) (s : State) (v : View) (also : Also) (n : Nat) :
    sameAround u (finish s v also t (.seq n)) := by
  obtain ⟨haround, hpairs⟩ := h
  exact ⟨haround, fun p => (samePairs_finish_seq s t v also n p).trans (hpairs p)⟩

/-! ## elect (R196) -/

/-- The results of `elect`: a predicate in each participant, true in the first of them. -/
def electResults (u : State) (h : Hdr) (d : BitVec 9) : List Pend :=
  u.predResults (u.performing h) d (fun _ => u.cyc) 2 fun k => (u.performing h).head? = some k

theorem electResults_of_performing_nil {u : State} {h : Hdr} (hp : u.performing h = []) (d : BitVec 9) : electResults u h d = [] := by
  rw [electResults, hp, State.predResults, List.map_nil]

theorem electResults_of_performing_cons {u : State} {h : Hdr} {n : Nat} {ks : List Nat} (hp : u.performing h = n :: ks) (d : BitVec 9) :
    electResults u h d = u.result (u.cyc + 2) (.p n (d.toNat - 320)) 1 ::
      ks.map fun k => u.result (u.cyc + 2) (.p k (d.toNat - 320)) (if k = n then 1 else 0) := by
  simp [electResults, hp, State.predResults, eq_comm]

theorem exec_elect_of_letsF {s : State} {f : Fields} (h : s.letsF 0x14 f) : exec (.elect f) s =
    .next (s.pastF ((s.readsF 0x14 f).addPends (electResults (s.readsF 0x14 f) f.h (s.stepped f).d)) 0x14 f (.seq 1)) := by
  rw [exec_elect, execElect]
  refine issueF_ok h ?_
  rw [stepped_h]
  rfl

/-- Settles O11: `elect` marks the head of its participants, the least of them since they stand in lane order; its issue adds their results
to those in flight and leaves every register and everything around the gang. -/
theorem electMarksTheLeast : Obligations.ElectMarksTheLeast := by
  unfold Obligations.ElectMarksTheLeast
  refine ⟨fun f => elect_fields, fun f s h => ⟨_, exec_elect_of_letsF h, keepsRegs_finish (keepsRegs_addPends _ _),
    sameAround_finish_seq (sameAround_addPends _ _) _ _ _ _, fun hp => ?_, fun n ks hp => ⟨performing_head_le hp, ?_⟩⟩⟩
  · refine (finish_seq_pend ..).trans ?_
    rw [electResults_of_performing_nil hp]
    rfl
  · refine (finish_seq_pend ..).trans ?_
    rw [electResults_of_performing_cons hp, State.addPends_g]

end Sys2Proof.Proofs.GridInstructions
end

section
/-! SUPPORT. Settles the statement about the two views of a scratchpad (spec/10 R203): the lane and the lane offset of a linear address as bit
fields, the conversions as inverses of each other, and the core, lane and lane offset that each kind of access names. -/
namespace Sys2Proof.Proofs.MemoryModel

open Sys2Proof Sys2Proof.Machine Sys2Proof.Claims

/-! ## The conversions as bit fields (R203) -/

theorem linOf_eq_or {l : Nat} (hl : l < 256) (o : Nat) : linOf l o = ((o >>> 4) <<< 12) ||| (l <<< 4) ||| (o &&& 15) := by
  have hlow : o &&& 15 = o % 16 := Nat.and_two_pow_sub_one_eq_mod o 4
  have hlane : l <<< 4 ||| o % 16 = l <<< 4 + o % 16 := (Nat.shiftLeft_add_eq_or_of_lt (Nat.mod_lt o (by decide)) l).symm
  have hfits : l <<< 4 + o % 16 < 2 ^ 12 := by
    rw [Nat.shiftLeft_eq]
    omega
  rw [Nat.or_assoc, hlow, hlane, ← Nat.shiftLeft_add_eq_or_of_lt hfits, Nat.shiftLeft_eq, Nat.shiftLeft_eq, Nat.shiftRight_eq_div_pow,
    ← Nat.add_assoc]
  rfl

theorem laneOf_eq_and (a : Nat) : laneOf a = (a >>> 4) &&& 255 := by
  rw [Nat.and_two_pow_sub_one_eq_mod _ 8, Nat.shiftRight_eq_div_pow]
  rfl

theorem offOf_eq_or (a : Nat) : offOf a = ((a >>> 12) <<< 4) ||| (a &&& 15) := by
  rw [Nat.and_two_pow_sub_one_eq_mod _ 4, ← Nat.shiftLeft_add_eq_or_of_lt (Nat.mod_lt a (by decide)), Nat.shiftLeft_eq,
    Nat.shiftRight_eq_div_pow]
  rfl

/-! ## The ranges of the two views (R203) -/

theorem linOf_lt {l o : Nat} (hl : l < 256) (ho : o < 8192) : linOf l o < 2 ^ 21 := by
  unfold linOf
  omega

theorem laneOf_lt (a : Nat) : laneOf a < 256 := Nat.mod_lt _ (by decide)

theorem offOf_lt {a : Nat} (ha : a < 2 ^ 21) : offOf a < 8192 := by
  unfold offOf
  omega

/-! ## Each conversion undoes the other (R203) -/

theorem laneOf_linOf {l : Nat} (hl : l < 256) (o : Nat) : laneOf (linOf l o) = l := by
  unfold laneOf linOf
  omega

theorem offOf_linOf {l : Nat} (hl : l < 256) (o : Nat) : offOf (linOf l o) = o := by
  unfold offOf linOf
  omega

theorem linOf_laneOf_offOf (a : Nat) : linOf (laneOf a) (offOf a) = a := by
  unfold linOf laneOf offOf
  omega

/-! ## Aligned groups and blocks (R203) -/

/-- A 16-byte aligned linear group lies in one lane. -/
theorem laneOf_add_of_aligned {a i : Nat} (ha : a % 16 = 0) (hi : i < 16) : laneOf (a + i) = laneOf a := by
  unfold laneOf
  omega

/-- A group of a 4,096-byte aligned linear block is lane l's 16 bytes at the block's step of lane offset. -/
theorem block_group_eq_linOf {b : Nat} (hb : b % 4096 = 0) (l : Nat) : b + 16 * l = linOf l (b / 4096 * 16) := by
  unfold linOf
  omega

/-! ## The core that an access names (R27, R114, R203) -/

/-- Bit 21 clear: the access is to the issuing core. -/
theorem linAcc_of_lt {s : State} (hcore : s.g.core < 2) {a : Nat} (ha : a < 2 ^ 21) (k n : Nat) : s.linAcc k a n =
    { k := k, core := coreOf s.coh.pair s.g.core, lane := laneOf a, off := offOf a, mis := a % n != 0, out := false } := by
  have hcore' : (s.g.core + a / 2 ^ 21 % 2) % 2 = s.g.core := by omega
  have hout : decide (a ≥ 2 ^ 22) = false := decide_eq_false (by omega)
  unfold State.linAcc
  extract_lets other
  rw [hcore', Nat.mod_eq_of_lt ha, hout]

/-- Bit 21 set: the access is to the other core of the pair, at the address without that bit. -/
theorem linAcc_of_bit21 {s : State} (hcore : s.g.core < 2) {a : Nat} (hlo : 2 ^ 21 ≤ a) (hhi : a < 2 ^ 22) (k n : Nat) : s.linAcc k a n =
    { k := k, core := coreOf s.coh.pair (1 - s.g.core), lane := laneOf (a - 2 ^ 21), off := offOf (a - 2 ^ 21), mis := a % n != 0,
      out := false } := by
  have hcore' : (s.g.core + a / 2 ^ 21 % 2) % 2 = 1 - s.g.core := by omega
  have haddr : a % 2 ^ 21 = a - 2 ^ 21 := by omega
  have hout : decide (a ≥ 2 ^ 22) = false := decide_eq_false (by omega)
  unfold State.linAcc
  extract_lets other
  rw [hcore', haddr, hout]

/-- Bits <63:22> must be zero (R114). -/
theorem linAcc_out {a : Nat} (ha : 2 ^ 22 ≤ a) (s : State) (k n : Nat) : (s.linAcc k a n).out = true := decide_eq_true ha

theorem viewAcc_out_iff (s : State) (k a n : Nat) : (s.viewAcc k a n).out = true ↔ 8192 ≤ a := decide_eq_true_iff

/-- Settles O54: the conversions are the bit fields of R203 and undo each other, and an access at a linear address is to the core that bit 21
names. A block's groups are in lane order because each of them is the lane view's address written as a linear one. -/
theorem twoViews : Obligations.TwoViews := by
  unfold Obligations.TwoViews
  refine ⟨fun l o hl ho => ⟨linOf_eq_or hl o, linOf_lt hl ho, laneOf_linOf hl o, offOf_linOf hl o⟩,
    fun a ha => ⟨laneOf_eq_and a, offOf_eq_or a, laneOf_lt a, offOf_lt ha, linOf_laneOf_offOf a⟩,
    fun s k a n hcore => ⟨fun ha => ?_, fun hlo hhi => ?_, fun ha => linAcc_out ha s k n, rfl, rfl, rfl, viewAcc_out_iff s k a n⟩,
    fun a i ha hi => laneOf_add_of_aligned ha hi, fun b l hb hl => ?_⟩
  · rw [linAcc_of_lt hcore ha]
    exact ⟨rfl, rfl, rfl, rfl⟩
  · rw [linAcc_of_bit21 hcore hlo hhi]
    exact ⟨rfl, rfl, rfl, rfl⟩
  · rw [block_group_eq_linOf hb]
    exact ⟨laneOf_linOf hl _, offOf_linOf hl _⟩

end Sys2Proof.Proofs.MemoryModel
end
